-- ==== Sys2Proof/Word.lean ====
section
/-! DEFINITION. The word types of the block: bytes, the data bus and output text (00_scope.md R7, R9). -/

namespace Sys2Proof

/-- A frame byte or a command word: 8 bits, numbered 7 (most significant) down to 0 (R7). -/
abbrev Byte := BitVec 8

/-- The 64-bit data word of a command (30_encoding.md R60). -/
abbrev Data := BitVec 64

/-- A string: a finite sequence of ASCII characters (R9). -/
abbrev Text := List Char

end Sys2Proof
end

