-- ==== Sys2Proof/Config.lean ====
section
/-! DEFINITION. What an implementation fixes: the constants of R5 that are sizes, and the parameters of R6, which
the source leaves open. Every function that needs a parameter takes a `Params` as an argument; the machine itself
runs with `Config.params`, a constant without a body (log entry 6), so that nothing can be proved of its value. -/

namespace Sys2Proof

/-- FRAME_BYTES (R5). -/
abbrev frameBytes : Nat := 24

/-- CHUNK_BYTES (R5). -/
abbrev chunkBytes : Nat := 8

/-- NCHUNKS (R5). -/
abbrev nChunks : Nat := 3

/-- A byte offset of the frame buffer, 0..23 (20_memory.md R40). -/
abbrev FrameAddr := Fin frameBytes

/-- A position: byte n in 0..23 and bit b in 0..7 (R6). -/
structure Position where
  byte : FrameAddr
  bit : Fin 8
  deriving DecidableEq, Repr, Inhabited

/-- The glyph characters: the source's closed set '0'..'9', 'L', 'd', 'i', 'o', 'n', 'E', 'r', 'C', 'F'
(41_glyph_lut.md R120, R121). It has no blank (R125). -/
inductive GlyphChar where
  | c0 | c1 | c2 | c3 | c4 | c5 | c6 | c7 | c8 | c9
  | cL | cd | ci | co | cn | cE | cr | cC | cF
  deriving DecidableEq, Repr, Inhabited

/-- A GLYPH_SHAPES table (R6): a partial map from 7-bit shapes to characters. DEDUCED (log entry 7): the two rows
the spec states for the meter's own table are part of the type: shape 0x79 is 'd' (R123) and the shape with every
segment off has no entry (R125). -/
structure GlyphShapes where
  lookup : BitVec 7 → Option GlyphChar := fun shape => if shape = 0x79#7 then some .cd else none
  shape_d : lookup 0x79#7 = some .cd := by decide
  shape_dark : lookup 0x00#7 = none := by decide
  deriving Inhabited

/-- SEC_CELLS (R6): the secondary digit cells left to right, at most 7 of them. -/
structure SecCells where
  cells : List FrameAddr := []
  length_le : cells.length ≤ 7 := by decide
  deriving DecidableEq, Repr, Inhabited

/-- The parameters of R6, in the spec's order and under the spec's names. No constraint ties them together: two
parameters may name one position, and a position may lie inside a digit cell. -/
structure Params where
  /-- OHM_AT_BIT3: true when MAIN_OHM is (15,3) and MAIN_OHM_k is (15,1), false for the reverse. -/
  ohmAtBit3 : Bool
  mainElU : Position
  mainElM : Position
  mainElA : Position
  mainElV : Position
  mainHz : Position
  mainHzK : Position
  mainHzM : Position
  mainDb : Position
  mainPct : Position
  mainT1 : Position
  mainT2 : Position
  mainT1T2 : Position
  mainOhmM : Position
  mainF : Position
  mainFN : Position
  mainFU : Position
  mainFM : Position
  mainS : Position
  mainSN : Position
  secAc : Position
  secDc : Position
  secHz : Position
  secHzK : Position
  secHzM : Position
  secT2 : Position
  secElU : Position
  secElM : Position
  secElA : Position
  secElPct420 : Position
  secElV : Position
  secSign : Position
  secCells : SecCells
  glyphShapes : GlyphShapes
  deriving Inhabited

/-- The parameters of the machine at hand: a free value (R6; 92_eei_decisions.md D34, D35; log entry 6). -/
opaque Config.params : Params

end Sys2Proof
end

