-- ==== Sys2Proof/Syntax.lean ====
section
/-! DEFINITION. The commands of the block: one constructor of `Instr` per row of the opcode table, the raw command
the host presents, and the assembler's commands of 30_encoding.md R69 and R70. -/

namespace Sys2Proof

/-- The four commands (30_encoding.md R60). -/
inductive Instr where
  /-- NOP (40_frame_assembler.md R100). -/
  | nop
  /-- STORE idx, len, data (R101): the chunk index, the byte count and the data word, lane j at bits 8j+7:8j. -/
  | store (idx len : Nat) (data : Data)
  /-- DECODE (44_decode.md R200). -/
  | decode
  /-- CLEAR (R102). -/
  | clear
  deriving DecidableEq, Repr

/-- A raw command on the command interface: the command word CMD and the data word DATA (R60). -/
structure Command where
  cmd : Byte
  data : Data
  deriving DecidableEq, Repr

/-- What the host does to the block in one step (70_reset_and_hazards.md R240, R245). -/
inductive HostInput where
  /-- Present a command. -/
  | command (c : Command)
  /-- Assert reset, perhaps with a command presented at the same time, which then has no effect (R240). -/
  | reset (presented : Option Command)
  deriving DecidableEq, Repr

/-- A line of the assembler's text: the four commands and `.cmd` (R69), and the pseudo-commands (R70). -/
inductive AsmCommand where
  | nop
  | store (idx len : Nat) (bytes : Vector Byte 8)
  | decode
  | clear
  /-- `.cmd 0xNN`: a raw command word. R69 gives it no data; the programs of 95_test_vectors.md say in words what
  DATA holds with it, which is the second argument. -/
  | raw (cmd : Byte) (data : Data)
  | storeFull (idx : Nat) (bytes : Vector Byte 8)
  | loadFrame (bytes : Vector Byte 24)
  | read (bytes : Vector Byte 24)
  deriving DecidableEq, Repr

end Sys2Proof
end

