-- ==== Sys2Proof/WellFormed.lean ====
section
/-! DEFINITION. Which commands the encoding can carry. An index of 3 and a length of 9..15 are well formed: they are
errors that STORE itself raises, not ill-formed commands (30_encoding.md R63, R64). -/

namespace Sys2Proof

/-- IDX is a 2-bit field and LEN a 4-bit field (R61). -/
def Instr.wellFormed : Instr → Bool
  | .nop => true
  | .store idx len _ => decide (idx < 4) && decide (len < 16)
  | .decode => true
  | .clear => true

/-- The ranges of R69's operands: idx 0..3 and len 0..15. -/
def AsmCommand.wellFormed : AsmCommand → Bool
  | .nop => true
  | .store idx len _ => decide (idx < 4) && decide (len < 16)
  | .decode => true
  | .clear => true
  | .raw _ _ => true
  | .storeFull idx _ => decide (idx < 4)
  | .loadFrame _ => true
  | .read _ => true

end Sys2Proof
end

