-- ==== Sys2Proof/Decode.lean ====
section
/-! DEFINITION. The command decoder, total on every CMD and DATA (30_encoding.md R60 to R64), the encoder written
from the same table (R69), and the opcode table's numbering of a command's bits. -/

namespace Sys2Proof

/-- Why a command word names no command. -/
inductive DecodeError where
  /-- A reserved CMD value: bits 5:0 not zero under OP 0b00, 0b10 or 0b11 (R63). The block answers it with status
  RESERVED_FIELD (60_exceptions.md R221). -/
  | reservedField (cmd : Byte)
  deriving DecidableEq, Repr

/-- OP = CMD[7:6] (R60). -/
def cmdOp (cmd : Byte) : BitVec 2 := cmd.extractLsb' 6 2

/-- CMD[5:0], which is IDX and LEN for STORE and must be zero for every other command (R60). -/
def cmdLow (cmd : Byte) : BitVec 6 := cmd.extractLsb' 0 6

/-- IDX = CMD[5:4], unsigned (R61). -/
def cmdIdx (cmd : Byte) : Nat := (cmd.extractLsb' 4 2).toNat

/-- LEN = CMD[3:0], unsigned (R61). -/
def cmdLen (cmd : Byte) : Nat := (cmd.extractLsb' 0 4).toNat

/-- The outcome R63 names for each of the 256 values of CMD. DATA is kept by STORE only. -/
def decode (c : Command) : Except DecodeError Instr :=
  if cmdOp c.cmd = 0b01#2 then .ok (.store (cmdIdx c.cmd) (cmdLen c.cmd) c.data)
  else if cmdLow c.cmd ≠ 0#6 then .error (.reservedField c.cmd)
  else if cmdOp c.cmd = 0b00#2 then .ok .nop
  else if cmdOp c.cmd = 0b10#2 then .ok .decode
  else .ok .clear

/-- The command word and data word of a command: CMD = OP << 6 | idx << 4 | len (R60, R69). A command that ignores
DATA is given a DATA of zero. -/
def encode : Instr → Command
  | .nop => { cmd := 0x00#8, data := 0#64 }
  | .store idx len data => { cmd := 0b01#2 ++ BitVec.ofNat 2 idx ++ BitVec.ofNat 4 len, data := data }
  | .decode => { cmd := 0x80#8, data := 0#64 }
  | .clear => { cmd := 0xC0#8, data := 0#64 }

/-- The command whose bits are `w`, numbered as the opcode table numbers them: CMD is bits 7..0 and DATA bits 71..8,
lane 0 lowest. Bits at or above `nbits` are zero (log entry 11). -/
def tableCommand (nbits w : Nat) : Command :=
  let bits := w % 2 ^ nbits
  { cmd := BitVec.ofNat 8 bits, data := BitVec.ofNat 64 (bits / 256) }

/-- The instruction the decoder reads from a table row's word, none where it refuses. -/
def decodeTableWord (nbits w : Nat) : Option Instr :=
  match decode (tableCommand nbits w) with
  | .ok i => some i
  | .error _ => none

end Sys2Proof
end

