-- ==== Sys2Proof/Machine/State.lean ====
section
/-! DEFINITION. The state of the block (10_state.md), the response of a command (30_encoding.md R65 to R67), and the
reasons a step can stop. -/

namespace Sys2Proof.Machine

/-- STATUS (R65): the five codes the block produces. -/
inductive Status where
  | ok
  | frameIncomplete
  | chunkIndex
  | chunkSize
  | reservedField
  deriving DecidableEq, Repr

/-- A Reading: four strings (00_scope.md R1; 30_encoding.md R67). -/
structure Reading where
  mainValue : Text
  mainUnit : Text
  secValue : Text
  secUnit : Text
  deriving DecidableEq, Repr

/-- The response of one command (10_state.md R25). -/
structure Response where
  status : Status
  unk : Bool
  reading : Reading
  deriving DecidableEq, Repr

/-- The frame buffer: a list of (offset, byte) cells in canonical form (`Memory.wf`): offsets strictly rising and below
24, and no cell equal to what an unlisted offset reads as. -/
abbrev Memory := List Host.Cell

/-- Everything the block holds, and two fields of the model's own. -/
structure State where
  /-- FRAME[0..23] (R20). -/
  frame : Memory
  /-- VALID[2:0] (R21). -/
  valid : BitVec 3
  /-- The model's own: the response of the step that led here, none where that step was no command (R25; log 1). -/
  response : Option Response
  /-- The model's own: what the host will do next, in order (R26, R245; log 2). -/
  inputs : List HostInput
  deriving DecidableEq, Repr

/-- Reasons to stop with a fault: there are none. "The block never stops or hangs: every command in every state
completes with a response" (60_exceptions.md R220), and an offset outside 0..23 cannot be written down (20_memory.md
R44; log entry 10). Safe: a fault type without a constructor hides no stop. -/
inductive Fault where
  deriving DecidableEq, Repr

/-- Reasons to refuse. -/
inductive Refusal where
  /-- Raised by `exec` for a command without a meaning, by its mnemonic; safe, since the model stops. No arm of `exec`
  raises it: all four commands have their meaning. -/
  | notModelled (mnemonic : String)
  deriving DecidableEq, Repr

/-- The state right after reset (10_state.md R28, 70_reset_and_hazards.md R240): VALID is 0b000. FRAME is unspecified
there; DESIGN CHOICE (log entry 4): nothing is listed, so every byte reads as `frameUnwritten`. -/
def State.reset : State :=
  { frame := [], valid := 0b000#3, response := none, inputs := [] }

end Sys2Proof.Machine
end

