-- ==== Sys2Proof/Machine/Operands.lean ====
section
/-! DEFINITION. The operand forms of STORE: its chunk, its byte lanes and its frame offsets (30_encoding.md R61,
R62; 20_memory.md R40, R42). -/

namespace Sys2Proof.Machine

/-- The chunk that IDX names: 0, 1 or 2, and none for any other index (R61). -/
def chunkOf (idx : Nat) : Option (Fin 3) :=
  if h : idx < nChunks then some ⟨idx, h⟩ else none

/-- Byte lane j of DATA: DATA[8j+7:8j] (R62). -/
def lane (data : Data) (j : Fin 8) : Byte :=
  data.extractLsb' (8 * j.val) 8

/-- The frame offset of byte j of chunk c: 8c + j (R42). -/
def chunkAddr (c : Fin 3) (j : Fin 8) : FrameAddr :=
  ⟨8 * c.val + j.val, show 8 * c.val + j.val < 24 by omega⟩

/-- The eight lanes, the first received first (R62). -/
def lanes : List (Fin 8) := [0, 1, 2, 3, 4, 5, 6, 7]

/-- A byte on lane j of a data word: b << 8j. -/
def onLane (b : Byte) (j : Nat) : Data := b.setWidth 64 <<< (8 * j)

/-- The data word whose lane j is byte j: the sum of bj << 8j (R69), whose terms have no bit in common. -/
def dataOfBytes (b : Vector Byte 8) : Data :=
  onLane b[0] 0 ||| onLane b[1] 1 ||| onLane b[2] 2 ||| onLane b[3] 3 ||| onLane b[4] 4 ||| onLane b[5] 5 |||
    onLane b[6] 6 ||| onLane b[7] 7

end Sys2Proof.Machine
end

