-- ==== Sys2Proof/Machine/Ops.lean ====
section
/-! DEFINITION. The named operations over the frame buffer, VALID, the response and the host's inputs. Raising an
error is the one shared operation `State.raise` (60_exceptions.md R220, R223); nothing returns from an error (R224). -/

namespace Sys2Proof.Machine

/-! ## The frame buffer -/

/-- What an offset reads as that no STORE has written since reset. DESIGN CHOICE (log entry 4): 0x00; the spec leaves
it unspecified (10_state.md R28). -/
def frameUnwritten : Byte := 0x00#8

/-- The byte the first cell of offset `a` lists, or `frameUnwritten`. -/
def Memory.readAt : Memory → Nat → Byte
  | [], _ => frameUnwritten
  | (k, v) :: rest, a => if k = a then v else Memory.readAt rest a

/-- FRAME[a] (00_scope.md R9). -/
def Memory.read (m : Memory) (a : FrameAddr) : Byte := Memory.readAt m a.val

/-- The cells without those of offset `a`. -/
def Memory.erase (m : Memory) (a : Nat) : Memory := m.filter (fun c => decide (c.1 ≠ a))

/-- The cell (a, b) put before the first cell of a higher offset. -/
def Memory.insert : Memory → Nat → Byte → Memory
  | [], a, b => [(a, b)]
  | (k, v) :: rest, a, b => if a < k then (a, b) :: (k, v) :: rest else (k, v) :: Memory.insert rest a b

/-- FRAME[a] <- b (R9), keeping the canonical form: a byte equal to `frameUnwritten` is not listed. -/
def Memory.write (m : Memory) (a : FrameAddr) (b : Byte) : Memory :=
  if b = frameUnwritten then Memory.erase m a.val else Memory.insert (Memory.erase m a.val) a.val b

/-- The canonical form: offsets strictly rising, each a frame offset, no byte equal to `frameUnwritten`. -/
abbrev Memory.wf (m : Memory) : Prop :=
  m.Pairwise (fun c d => c.1 < d.1) ∧ ∀ c ∈ m, c.1 < frameBytes ∧ c.2 ≠ frameUnwritten

/-- The 24 bytes of a frame, as DECODE reads them. -/
abbrev Frame := FrameAddr → Byte

/-- MemRead(0, 24): all 24 bytes as one snapshot (R9; 20_memory.md R44). -/
def Memory.snapshot (m : Memory) : Frame := fun a => Memory.read m a

/-- MemWrite(8c, len, DATA): lanes 0..len-1 to offsets 8c .. 8c+len-1 (R9; 40_frame_assembler.md R101). -/
def Memory.writeLanes (m : Memory) (c : Fin 3) (len : Nat) (data : Data) : Memory :=
  lanes.foldl (fun m' j => if j.val < len then Memory.write m' (chunkAddr c j) (lane data j) else m') m

/-! ## BITS, the derived view of FRAME -/

/-- A byte as the source's 8-character string of '0' and '1', bit 7 first (10_state.md R22; 20_memory.md R43). -/
def bitString (v : Byte) : Text :=
  [7, 6, 5, 4, 3, 2, 1, 0].map (fun b => if v.getLsbD b then '1' else '0')

/-- BITS[n]: a view of FRAME without storage of its own (R22). -/
def State.bits (s : State) (n : FrameAddr) : Text := bitString (Memory.read s.frame n)

/-! ## VALID -/

/-- VALID[c] (R9). -/
def validBit (v : BitVec 3) (c : Fin 3) : Bool := v.getLsbD c.val

/-- VALID[c] <- b (R9). -/
def setValidBit (v : BitVec 3) (c : Fin 3) (b : Bool) : BitVec 3 :=
  if b then v ||| (1#3 <<< c.val) else v &&& ~~~(1#3 <<< c.val)

/-- All three chunks stored in full (44_decode.md R200). -/
def validFull : BitVec 3 := 0b111#3

/-- VALID after reset, CLEAR and a successful DECODE (10_state.md R21, R28). -/
def validNone : BitVec 3 := 0b000#3

/-! ## The response -/

/-- Four empty strings (30_encoding.md R67). -/
def Reading.empty : Reading := { mainValue := [], mainUnit := [], secValue := [], secUnit := [] }

/-- A response that carries a status alone: UNK = 0 and four empty strings (R66, R67). -/
def Response.plain (st : Status) : Response := { status := st, unk := false, reading := Reading.empty }

/-- respond(…) (R9): the step's output. -/
def State.respond (s : State) (r : Response) : State := { s with response := some r }

/-- raise <Error> (R9; 60_exceptions.md R220, R223): the command ends with the error's status and changes nothing
else. -/
def State.raise (s : State) (st : Status) : State := s.respond (Response.plain st)

/-- FRAME after a command. -/
def State.setFrame (s : State) (m : Memory) : State := { s with frame := m }

/-- VALID after a command. -/
def State.setValid (s : State) (v : BitVec 3) : State := { s with valid := v }

/-! ## What the host does -/

/-- The host's next input, and the state without it: the step takes one command from the command interface
(10_state.md R26; 30_encoding.md R60). -/
def State.fetch (s : State) : Option (HostInput × State) :=
  match s.inputs with
  | [] => none
  | x :: rest => some (x, { s with inputs := rest })

/-- Put a command at the head of what the host will present. -/
def State.presentNext (s : State) (c : Command) : State := { s with inputs := .command c :: s.inputs }

/-- A step in which the host does nothing: FRAME and VALID stay, and there is no response (60_exceptions.md R225,
70_reset_and_hazards.md R246; log entry 3). -/
def State.idle (s : State) : State := { s with response := none }

/-- A step in which the host asserts reset: the state after reset, and no response, whatever command is presented
(R240). What the host does afterwards is still to come. FRAME is unspecified there; DESIGN CHOICE (log entry 5): it is
the FRAME of `State.reset`. -/
def State.assertReset (s : State) : State := { State.reset with inputs := s.inputs }

/-- What the block does with a CMD value that names no command: RESERVED_FIELD and no state change (R63, R221). -/
def State.rejectCommand (s : State) : DecodeError → State
  | .reservedField _ => s.raise .reservedField

end Sys2Proof.Machine
end

