-- ==== Sys2Proof/Machine/FrameAssembler.lean ====
section
/-! DEFINITION. The frame assembler's commands: NOP, STORE and CLEAR (40_frame_assembler.md R100 to R102). -/

namespace Sys2Proof.Machine

/-- NOP (R100): the OK response, and nothing else. -/
def execNop (s : State) : Host.Outcome State Fault Refusal :=
  .next (s.respond (Response.plain .ok))

/-- A STORE into chunk c (R101): the lanes below `len` are written, and VALID[c] says whether all eight were. -/
def storeChunk (c : Fin 3) (len : Nat) (data : Data) (s : State) : State :=
  ((s.setFrame (Memory.writeLanes s.frame c len data)).setValid (setValidBit s.valid c (decide (len = 8)))).respond
    (Response.plain .ok)

/-- STORE idx, len, data (R101): an index that names no chunk is CHUNK_INDEX, and only then a length above 8 is
CHUNK_SIZE (60_exceptions.md R222). -/
def execStore (idx len : Nat) (data : Data) (s : State) : Host.Outcome State Fault Refusal :=
  match chunkOf idx with
  | none => .next (s.raise .chunkIndex)
  | some c => if 8 < len then .next (s.raise .chunkSize) else .next (storeChunk c len data s)

/-- CLEAR (R102): VALID becomes 0b000; FRAME keeps its bytes. -/
def execClear (s : State) : Host.Outcome State Fault Refusal :=
  .next ((s.setValid validNone).respond (Response.plain .ok))

end Sys2Proof.Machine
end

