-- ==== Sys2Proof/Machine/Flags.lean ====
section
/-! DEFINITION. The annunciator flags and the mode/unit extractor for both displays (42_mode_unit.md R140 to R167).
Every function is pure: it reads a frame and the parameters, and no function reads another display's result (R167). -/

namespace Sys2Proof.Machine

/-! ## Flags and positions -/

/-- flag(F, p): bit p.bit of byte F[p.byte] is 1, bit 0 being the least significant (R140; 00_scope.md R7; log 9). -/
def flag (F : Frame) (p : Position) : Bool := (F p.byte).getLsbD p.bit.val

/-- MAIN_DC = (1, 3) (00_scope.md R5; 30_encoding.md R74). -/
def mainDc : Position := { byte := 1, bit := 3 }

/-- MAIN_AC = (2, 7) (R5, R74). -/
def mainAc : Position := { byte := 2, bit := 7 }

/-- MAIN_SIGN = (2, 0) (R5, R74). -/
def mainSignAt : Position := { byte := 2, bit := 0 }

/-- MAIN_OHM: (15, 3) or (15, 1) by OHM_AT_BIT3 (R140). -/
def mainOhm (P : Params) : Position :=
  if P.ohmAtBit3 then { byte := 15, bit := 3 } else { byte := 15, bit := 1 }

/-- MAIN_OHM_k: the other of (15, 3) and (15, 1) (R140). -/
def mainOhmK (P : Params) : Position :=
  if P.ohmAtBit3 then { byte := 15, bit := 1 } else { byte := 15, bit := 3 }

/-- `if flag(F, p) then t else ""` (00_scope.md R9). -/
def whenSet (F : Frame) (p : Position) (t : Text) : Text := if flag F p then t else []

/-! ## Main display (stage 1) -/

/-- The electrical kinds of the main display (R141). -/
inductive MainKind where
  | acDc
  | dc
  | ac
  deriving DecidableEq, Repr

/-- The string of an electrical kind (R141). -/
def MainKind.text : MainKind → Text
  | .acDc => ['A', 'C', '+', 'D', 'C']
  | .dc => ['D', 'C']
  | .ac => ['A', 'C']

/-- The electrical kind, in the priority order "AC+DC, DC, AC" (R141). -/
def mainKind (F : Frame) : Option MainKind :=
  if flag F mainAc && flag F mainDc then some .acDc
  else if flag F mainDc then some .dc
  else if flag F mainAc then some .ac
  else none

/-- The electrical decorations, in the order u, m, A, V (R142). -/
def mainDecoration (P : Params) (F : Frame) : Text :=
  whenSet F P.mainElU ['u'] ++ whenSet F P.mainElM ['m'] ++ whenSet F P.mainElA ['A'] ++ whenSet F P.mainElV ['V']

/-- "HZ" with its multipliers (R145). -/
def mainFrequency (P : Params) (F : Frame) : Text :=
  whenSet F P.mainHzK ['k'] ++ whenSet F P.mainHzM ['M'] ++ ['H', 'Z']

/-- "OHM" with its multipliers (R151). -/
def mainResistance (P : Params) (F : Frame) : Text :=
  whenSet F (mainOhmK P) ['k'] ++ whenSet F P.mainOhmM ['M'] ++ ['O', 'H', 'M']

/-- "F" with its multipliers (R152). -/
def mainCapacitance (P : Params) (F : Frame) : Text :=
  whenSet F P.mainFN ['n'] ++ whenSet F P.mainFU ['u'] ++ whenSet F P.mainFM ['m'] ++ ['F']

/-- "S" with its multiplier (R153). -/
def mainConductance (P : Params) (F : Frame) : Text :=
  whenSet F P.mainSN ['n'] ++ ['S']

/-- The non-electrical modes in priority order: the first whose predicate holds (R144 to R154). -/
def mainNonElectrical (P : Params) (F : Frame) : Text :=
  if flag F P.mainHz then mainFrequency P F
  else if flag F P.mainDb then ['d', 'B']
  else if flag F P.mainPct then ['%']
  else if flag F P.mainT1 then ['T', '1']
  else if flag F P.mainT2 then ['T', '2']
  else if flag F P.mainT1T2 then ['T', '1', '-', 'T', '2']
  else if flag F (mainOhm P) then mainResistance P F
  else if flag F P.mainF then mainCapacitance P F
  else if flag F P.mainS then mainConductance P F
  else []

/-- MAIN_MODE(F), stage 1 (R143, R155). -/
def mainMode (P : Params) (F : Frame) : Text :=
  match mainKind F with
  | some kind => mainDecoration P F ++ kind.text
  | none => mainNonElectrical P F

/-! ## Secondary display (stage 2) -/

/-- The electrical kinds of the secondary display; it has no AC+DC (R160). -/
inductive SecKind where
  | ac
  | dc
  deriving DecidableEq, Repr

/-- The string of a secondary kind (R160). -/
def SecKind.text : SecKind → Text
  | .ac => ['A', 'C']
  | .dc => ['D', 'C']

/-- The secondary electrical kind, AC before DC (R160). -/
def secKind (P : Params) (F : Frame) : Option SecKind :=
  if flag F P.secAc then some .ac else if flag F P.secDc then some .dc else none

/-- The secondary decorations, in the order u, m, A, %4-20mA, V (R161). -/
def secDecoration (P : Params) (F : Frame) : Text :=
  whenSet F P.secElU ['u'] ++ whenSet F P.secElM ['m'] ++ whenSet F P.secElA ['A'] ++
    whenSet F P.secElPct420 ['%', '4', '-', '2', '0', 'm', 'A'] ++ whenSet F P.secElV ['V']

/-- "HZ" with its multipliers on the secondary display (R163). -/
def secFrequency (P : Params) (F : Frame) : Text :=
  whenSet F P.secHzK ['k'] ++ whenSet F P.secHzM ['M'] ++ ['H', 'Z']

/-- SEC_UNIT(F), stage 2 (R162, R166). -/
def secUnit (P : Params) (F : Frame) : Text :=
  match secKind P F with
  | some kind => secDecoration P F ++ kind.text
  | none =>
    if flag F P.secHz then secFrequency P F
    else if flag F P.secT2 then ['T', '2']
    else []

end Sys2Proof.Machine
end

