-- ==== Sys2Proof/Machine/Glyph.lean ====
section
/-! DEFINITION. The 7-segment-to-glyph look-up table (41_glyph_lut.md R120 to R126) and the segment order inside a
digit-cell byte (00_scope.md R8, 30_encoding.md R71). -/

namespace Sys2Proof.Machine

/-- The seven segments and the decimal point x, in the source's order "bgcdafex" (R8). -/
inductive Segment where
  | b | g | c | d | a | f | e | x
  deriving DecidableEq, Repr

/-- The bit of a digit-cell byte that lights a segment: bit 7 down to bit 0 in the order b, g, c, d, a, f, e, x (R8). -/
def Segment.bit : Segment → Nat
  | .b => 7
  | .g => 6
  | .c => 5
  | .d => 4
  | .a => 3
  | .f => 2
  | .e => 1
  | .x => 0

/-- The digit-cell byte that lights exactly the listed segments (R8). -/
def litByte (segments : List Segment) : Byte :=
  segments.foldl (fun v s => v ||| (1#8 <<< s.bit)) 0#8

/-- The shape of a cell byte: v[7:1] (R8, R71). -/
def shapeOf (v : Byte) : BitVec 7 := v.extractLsb' 1 7

/-- The point bit of a cell byte: v[0] (R8, R71). -/
def pointBit (v : Byte) : Bool := v.getLsbD 0

/-- The character of a glyph (R121). -/
def glyphChar : GlyphChar → Char
  | .c0 => '0'
  | .c1 => '1'
  | .c2 => '2'
  | .c3 => '3'
  | .c4 => '4'
  | .c5 => '5'
  | .c6 => '6'
  | .c7 => '7'
  | .c8 => '8'
  | .c9 => '9'
  | .cL => 'L'
  | .cd => 'd'
  | .ci => 'i'
  | .co => 'o'
  | .cn => 'n'
  | .cE => 'E'
  | .cr => 'r'
  | .cC => 'C'
  | .cF => 'F'

/-- A glyph: the point character, the digit or letter, and whether the table has an entry (R120). -/
structure Glyph where
  pt : Char
  ch : Char
  known : Bool
  deriving DecidableEq, Repr

/-- LUT(v) (R120): a known shape gives its character, with '.' before it when the point bit is set; an unknown shape
gives the placeholder glyph " ?" whatever the point bit is (R122). -/
def lut (g : GlyphShapes) (v : Byte) : Glyph :=
  match g.lookup (shapeOf v) with
  | some c => { pt := if pointBit v then '.' else ' ', ch := glyphChar c, known := true }
  | none => { pt := ' ', ch := '?', known := false }

/-- The 19 rows of the default GLYPH_SHAPES (R121). The row for 'd' is the source's (R123); the others are PRESUMED
from general knowledge, by the spec itself (log entry 8). -/
def standardRows : List (BitVec 7 × GlyphChar) :=
  [(0x5F#7, .c0), (0x50#7, .c1), (0x6D#7, .c2), (0x7C#7, .c3), (0x72#7, .c4), (0x3E#7, .c5), (0x3F#7, .c6),
   (0x54#7, .c7), (0x7F#7, .c8), (0x7E#7, .c9)] ++
  [(0x0B#7, .cL), (0x79#7, .cd), (0x10#7, .ci), (0x39#7, .co), (0x31#7, .cn), (0x2F#7, .cE), (0x21#7, .cr),
   (0x0F#7, .cC), (0x27#7, .cF)]

/-- The character the default table gives a shape (R121). -/
def standardLookup (shape : BitVec 7) : Option GlyphChar :=
  (standardRows.find? (fun row => decide (row.1 = shape))).map (fun row => row.2)

/-- The default GLYPH_SHAPES (R121). The machine does not run with it: its table is a parameter (log entry 6). -/
def standardShapes : GlyphShapes :=
  { lookup := standardLookup, shape_d := by decide, shape_dark := by decide }

end Sys2Proof.Machine
end

