-- ==== Sys2Proof/Machine/Digits.lean ====
section
/-! DEFINITION. Sign determination, digit assembly, temperature post-processing (43_sign_digits.md R180 to R186) and
the whole decode function DECODE_FN (44_decode.md R201). Every function is pure (R202). -/

namespace Sys2Proof.Machine

/-! ## Signs (stage 3) -/

/-- The main sign: "-" or nothing (R180). -/
def mainSign (F : Frame) : Text := whenSet F mainSignAt ['-']

/-- SEC_SIGN_STR (R181). -/
def secSignText (P : Params) (F : Frame) : Text := whenSet F P.secSign ['-']

/-! ## Digit assembly (stage 4) -/

/-- What one glyph adds to a digit string: '.' first when the glyph has a point, then its character (R182). -/
def glyphText (gl : Glyph) : Text := (if gl.pt = '.' then ['.'] else []) ++ [gl.ch]

/-- The cells of a display, visited left to right (R182, R183). -/
def assemble (g : GlyphShapes) : List Byte → Text
  | [] => []
  | v :: rest => glyphText (lut g v) ++ assemble g rest

/-- Some cell of a display has no LUT entry (R182, R183, R185). -/
def anyUnknown (g : GlyphShapes) (cells : List Byte) : Bool := cells.any (fun v => !(lut g v).known)

/-- A cell byte with its point bit cleared: v & 0xFE (R182). -/
def withoutPoint (v : Byte) : Byte := v &&& 0xFE#8

/-- MAIN_CELLS as they are looked up: bytes 3..8 left to right, the point bit cleared at the first and the last (R182;
30_encoding.md R72). -/
def mainCellBytes (F : Frame) : List Byte :=
  [withoutPoint (F 3), F 4, F 5, F 6, F 7, withoutPoint (F 8)]

/-- The cells of SEC_CELLS, whole bytes (R183; 30_encoding.md R73). -/
def secCellBytes (P : Params) (F : Frame) : List Byte := P.secCells.cells.map F

/-- MAIN_DIGITS (R182). -/
def mainDigits (P : Params) (F : Frame) : Text := assemble P.glyphShapes (mainCellBytes F)

/-- SEC_DIGITS (R183). -/
def secDigits (P : Params) (F : Frame) : Text := assemble P.glyphShapes (secCellBytes P F)

/-- UNK (R185). -/
def unknownSegment (P : Params) (F : Frame) : Bool :=
  anyUnknown P.glyphShapes (mainCellBytes F) || anyUnknown P.glyphShapes (secCellBytes P F)

/-- startsWith(s, 'T') (00_scope.md R9). -/
def startsWithT (t : Text) : Bool :=
  match t with
  | [] => false
  | c :: _ => decide (c = 'T')

/-- Temperature post-processing of a mode and a digit string: (MAIN_NUM, MAIN_UNIT) (R184). The spec calls it on
non-empty digit strings only; on the empty one no character is moved (log entry 13). -/
def temperaturePost (mode digits : Text) : Text × Text :=
  if startsWithT mode then (digits.dropLast, mode ++ [' '] ++ digits.getLast?.toList)
  else (digits, mode)

/-! ## The decode function -/

/-- DECODE_FN(F): the Reading and UNK (44_decode.md R201; value strings R186). -/
def decodeFn (P : Params) (F : Frame) : Reading × Bool :=
  let main := temperaturePost (mainMode P F) (mainDigits P F)
  ({ mainValue := mainSign F ++ main.1
     mainUnit := main.2
     secValue := secSignText P F ++ secDigits P F
     secUnit := secUnit P F },
   unknownSegment P F)

end Sys2Proof.Machine
end

