-- ==== Sys2Proof/Machine/SegmentDecoder.lean ====
section
/-! DEFINITION. The DECODE command (44_decode.md R200). -/

namespace Sys2Proof.Machine

/-- The response of a DECODE that succeeds on frame F (R200, R201). -/
def decodeResponse (P : Params) (F : Frame) : Response :=
  { status := .ok, unk := (decodeFn P F).2, reading := (decodeFn P F).1 }

/-- DECODE with the parameters P (R200): FRAME_INCOMPLETE unless VALID = 0b111; otherwise the Reading of the stored
frame, which is then discarded. FRAME keeps its bytes. -/
def decodeWith (P : Params) (s : State) : State :=
  if s.valid = validFull then
    (s.setValid validNone).respond (decodeResponse P (Memory.snapshot s.frame))
  else s.raise .frameIncomplete

/-- DECODE on the machine at hand (R200; log entry 6). -/
def execDecode (s : State) : Host.Outcome State Fault Refusal :=
  .next (decodeWith Config.params s)

end Sys2Proof.Machine
end

