-- ==== Sys2Proof/Machine/Step.lean ====
section
/-! DEFINITION. One step of the block: the host's next input takes effect (20_memory.md R45, R47; 70_reset_and_hazards.md
R240, R244, R245). -/

namespace Sys2Proof.Machine

/-- One step. The host does nothing, asserts reset, or presents a command; a command that CMD names is executed, and a
reserved CMD value is answered with RESERVED_FIELD (30_encoding.md R63). -/
def step (s : State) : Host.Outcome State Fault Refusal :=
  match s.fetch with
  | none => .next s.idle
  | some (.reset _, s') => .next s'.assertReset
  | some (.command c, s') =>
    match decode c with
    | .ok i => exec i s'
    | .error e => .next (s'.rejectCommand e)

/-- `s` with the instruction of the opcode table's bits `w` as the host's next command: the block fetches nothing
(10_state.md R26), so this stands for the host presenting it (log entry 2). -/
def State.withFetchWord (s : State) (nbits w : Nat) : State := s.presentNext (tableCommand nbits w)

end Sys2Proof.Machine
end

