-- ==== Sys2Proof/Machine/Assembler.lean ====
section
/-! DEFINITION. The assembler of 30_encoding.md R69 and R70: the expansion of pseudo-commands, the commands a line
encodes to, and the reading of the text itself. It is no part of the block: it writes what the host presents. -/

namespace Sys2Proof.Machine

/-! ## Pseudo-commands and encoding -/

/-- Bytes 8c .. 8c+7 of a frame, as the operands of a STORE (R70). -/
def chunkBytesOf (f : Vector Byte 24) (c : Fin 3) : Vector Byte 8 :=
  #v[f[chunkAddr c 0], f[chunkAddr c 1], f[chunkAddr c 2], f[chunkAddr c 3],
    f[chunkAddr c 4], f[chunkAddr c 5], f[chunkAddr c 6], f[chunkAddr c 7]]

/-- LOADFRAME: the three full STOREs, chunk 0 first (R70). -/
def loadFrameLines (f : Vector Byte 24) : List AsmCommand :=
  [.store 0 8 (chunkBytesOf f 0), .store 1 8 (chunkBytesOf f 1), .store 2 8 (chunkBytesOf f 2)]

/-- The expansion of a pseudo-command; a command of R69 stands for itself (R70). -/
def expandLine : AsmCommand → List AsmCommand
  | .storeFull idx bytes => [.store idx 8 bytes]
  | .loadFrame f => loadFrameLines f
  | .read f => loadFrameLines f ++ [.decode]
  | .nop => [.nop]
  | .store idx len bytes => [.store idx len bytes]
  | .decode => [.decode]
  | .clear => [.clear]
  | .raw cmd data => [.raw cmd data]

/-- A STORE of the text as a command: DATA is the sum of bj << 8j over all eight bytes (R69). -/
def storeOf (idx len : Nat) (bytes : Vector Byte 8) : Command := encode (.store idx len (dataOfBytes bytes))

/-- The commands a line stands for, pseudo-commands expanded (R69, R70). -/
def lineCommands : AsmCommand → List Command
  | .nop => [encode .nop]
  | .store idx len bytes => [storeOf idx len bytes]
  | .decode => [encode .decode]
  | .clear => [encode .clear]
  | .raw cmd data => [{ cmd := cmd, data := data }]
  | .storeFull idx bytes => [storeOf idx 8 bytes]
  | .loadFrame f => [storeOf 0 8 (chunkBytesOf f 0), storeOf 1 8 (chunkBytesOf f 1), storeOf 2 8 (chunkBytesOf f 2)]
  | .read f =>
    [storeOf 0 8 (chunkBytesOf f 0), storeOf 1 8 (chunkBytesOf f 1), storeOf 2 8 (chunkBytesOf f 2), encode .decode]

/-! ## The text -/

/-- Why a line of text is no command. -/
inductive AsmError where
  | unknownMnemonic
  | badNumber
  | wrongOperandCount
  | operandOutOfRange
  deriving DecidableEq, Repr

/-- The pieces of a text between separators. -/
def splitText (sep : Char) : Text → List Text
  | [] => [[]]
  | c :: rest =>
    if c = sep then [] :: splitText sep rest
    else
      match splitText sep rest with
      | [] => [[c]]
      | piece :: more => (c :: piece) :: more

/-- A line without its comment: `;` starts a comment (R69). -/
def withoutComment (line : Text) : Text := line.takeWhile (fun c => decide (c ≠ ';'))

/-- White space: space, tab and carriage return (log entry 14). -/
def isBlank (c : Char) : Bool := decide (c = ' ') || decide (c = '\t') || decide (c = '\r')

/-- A text without white space at either end. -/
def trimText (t : Text) : Text := ((t.dropWhile isBlank).reverse.dropWhile isBlank).reverse

/-- The value of a digit of either case, up to the given base (log entry 14). -/
def digitValue (base : Nat) (c : Char) : Option Nat :=
  let n := c.toNat
  let v := if 48 ≤ n ∧ n ≤ 57 then n - 48 else if 65 ≤ n ∧ n ≤ 70 then n - 55 else if 97 ≤ n ∧ n ≤ 102 then n - 87 else base
  if v < base then some v else none

/-- The number whose digits follow `acc`. -/
def digitsValue (base : Nat) : Nat → Text → Option Nat
  | acc, [] => some acc
  | acc, c :: rest =>
    match digitValue base c with
    | some v => digitsValue base (acc * base + v) rest
    | none => none

/-- A number: 0xNN in hexadecimal (R69), otherwise decimal (log entry 14). -/
def parseNumber (t : Text) : Option Nat :=
  match t with
  | [] => none
  | '0' :: 'x' :: d :: rest => digitsValue 16 0 (d :: rest)
  | c :: rest => digitsValue 10 0 (c :: rest)

/-- Every operand as a number. -/
def parseNumbers : List Text → Except AsmError (List Nat)
  | [] => .ok []
  | t :: rest =>
    match parseNumber (trimText t), parseNumbers rest with
    | some n, .ok ns => .ok (n :: ns)
    | none, _ => .error .badNumber
    | _, .error e => .error e

/-- The operands of a line, separated by commas; an empty text has none. -/
def parseOperands (t : Text) : Except AsmError (List Nat) :=
  if t = [] then .ok [] else parseNumbers (splitText ',' t)

/-- Exactly k bytes. -/
def bytesOf (k : Nat) (ns : List Nat) : Except AsmError (Vector Byte k) :=
  if ns.all (fun n => decide (n < 256)) then
    if h : (ns.map (fun n => BitVec.ofNat 8 n)).length = k then .ok ⟨(ns.map (fun n => BitVec.ofNat 8 n)).toArray, h⟩
    else .error .wrongOperandCount
  else .error .operandOutOfRange

/-- The line a mnemonic and its operands make, before the range check of idx and len (R69, R70). -/
def lineOf (mnemonic : Text) (operands : List Nat) : Except AsmError AsmCommand :=
  if mnemonic = ['N', 'O', 'P'] then
    if operands = [] then .ok .nop else .error .wrongOperandCount
  else if mnemonic = ['D', 'E', 'C', 'O', 'D', 'E'] then
    if operands = [] then .ok .decode else .error .wrongOperandCount
  else if mnemonic = ['C', 'L', 'E', 'A', 'R'] then
    if operands = [] then .ok .clear else .error .wrongOperandCount
  else if mnemonic = ['S', 'T', 'O', 'R', 'E'] then
    match operands with
    | idx :: len :: bytes => (bytesOf 8 bytes).map (.store idx len)
    | _ => .error .wrongOperandCount
  else if mnemonic = ['S', 'T', 'O', 'R', 'E', 'F', 'U', 'L', 'L'] then
    match operands with
    | idx :: bytes => (bytesOf 8 bytes).map (.storeFull idx)
    | _ => .error .wrongOperandCount
  else if mnemonic = ['L', 'O', 'A', 'D', 'F', 'R', 'A', 'M', 'E'] then (bytesOf 24 operands).map .loadFrame
  else if mnemonic = ['R', 'E', 'A', 'D'] then (bytesOf 24 operands).map .read
  else if mnemonic = ['.', 'c', 'm', 'd'] then
    (bytesOf 1 operands).map (fun b => .raw b[0] 0#64)
  else .error .unknownMnemonic

/-- One line of text: none where nothing but white space and a comment stands (R69). -/
def parseLine (line : Text) : Except AsmError (Option AsmCommand) :=
  let body := trimText (withoutComment line)
  if body = [] then .ok none
  else
    let mnemonic := body.takeWhile (fun c => !isBlank c)
    match parseOperands (trimText (body.dropWhile (fun c => !isBlank c))) with
    | .error e => .error e
    | .ok operands =>
      match lineOf mnemonic operands with
      | .error e => .error e
      | .ok a => if a.wellFormed then .ok (some a) else .error .operandOutOfRange

/-- The lines of a program as commands (R69). -/
def parseLines : List Text → Except AsmError (List AsmCommand)
  | [] => .ok []
  | line :: rest =>
    match parseLine line, parseLines rest with
    | .ok (some a), .ok more => .ok (a :: more)
    | .ok none, .ok more => .ok more
    | .error e, _ => .error e
    | _, .error e => .error e

/-- What the host presents for a program's text, one command per line (R69). -/
def assembleText (program : Text) : Except AsmError (List HostInput) :=
  (parseLines (splitText '\n' program)).map (fun as => (as.flatMap lineCommands).map HostInput.command)

end Sys2Proof.Machine
end

