-- ==== Sys2Proof/Machine/Ports.lean ====
section
/-! DEFINITION. The bits of a response: the status code (30_encoding.md R65) and the string ports (R68). They are a
derived view of `Response`, like BITS of FRAME. -/

namespace Sys2Proof.Machine

/-- The 3-bit code of a status (R65). -/
def Status.code : Status → BitVec 3
  | .ok => 0#3
  | .frameIncomplete => 1#3
  | .chunkIndex => 2#3
  | .chunkSize => 3#3
  | .reservedField => 4#3

/-- The status a code stands for; codes 5, 6 and 7 stand for none (R65; 93_implementation_defined.md U12). -/
def Status.ofCode (code : BitVec 3) : Option Status :=
  if code = 0#3 then some .ok
  else if code = 1#3 then some .frameIncomplete
  else if code = 2#3 then some .chunkIndex
  else if code = 3#3 then some .chunkSize
  else if code = 4#3 then some .reservedField
  else none

/-- The ASCII code of a character (R67). -/
def asciiCode (c : Char) : Byte := BitVec.ofNat 8 c.toNat

/-- The characters that can appear in a Reading (R67). -/
def outputChars : List Char :=
  [' ', '%', '+', '-', '.'] ++ ['0', '1', '2', '3', '4', '5', '6', '7', '8', '9'] ++ ['?'] ++
  ['A', 'B', 'C', 'D', 'E', 'F', 'H', 'L', 'M', 'O', 'S', 'T', 'V', 'Z'] ++
  ['d', 'i', 'k', 'm', 'n', 'o', 'r', 'u']

/-- A string port: a 5-bit length and 16 bytes (R68). -/
structure StringPort where
  length : BitVec 5
  bytes : Vector Byte 16
  deriving DecidableEq, Repr

/-- Byte k of a string's port: the ASCII code of character k, and 0x00 past the end (R68). -/
def portByte (t : Text) (k : Nat) : Byte :=
  match t[k]? with
  | some c => asciiCode c
  | none => 0x00#8

/-- The port of a string of at most 16 characters (R68). -/
def toPort (t : Text) : StringPort :=
  { length := BitVec.ofNat 5 t.length
    bytes := #v[portByte t 0, portByte t 1, portByte t 2, portByte t 3, portByte t 4, portByte t 5, portByte t 6,
      portByte t 7, portByte t 8, portByte t 9, portByte t 10, portByte t 11, portByte t 12, portByte t 13,
      portByte t 14, portByte t 15] }

/-- The string on a port: the characters of its first `length` bytes (R68). -/
def ofPort (p : StringPort) : Text :=
  (p.bytes.toList.take p.length.toNat).map (fun b => Char.ofNat b.toNat)

/-- Everything a response drives: STATUS, UNK and the four string ports (10_state.md R25). -/
structure ResponsePorts where
  status : BitVec 3
  unk : BitVec 1
  mainValue : StringPort
  mainUnit : StringPort
  secValue : StringPort
  secUnit : StringPort
  deriving DecidableEq, Repr

/-- The bits of a response (R65 to R68). -/
def Response.ports (r : Response) : ResponsePorts :=
  { status := r.status.code
    unk := BitVec.ofBool r.unk
    mainValue := toPort r.reading.mainValue
    mainUnit := toPort r.reading.mainUnit
    secValue := toPort r.reading.secValue
    secUnit := toPort r.reading.secUnit }

end Sys2Proof.Machine
end

