-- ==== Sys2Proof/Safety.lean ====
section
/-! DEFINITION. The terms claims use: what a run shows the host, what a good state is, the status every command must
answer, and a reference for one reading cycle that keeps no frame bytes of earlier cycles. -/

namespace Sys2Proof.Machine

/-! ## Runs -/

/-- The responses of `n` steps, in order: the observation of a run (70_reset_and_hazards.md R246). -/
def trace : Nat → State → List Response
  | 0, _ => []
  | n + 1, s =>
    match step s with
    | .next t => t.response.toList ++ trace n t
    | .fault _ => []
    | .refused _ => []

/-- The state after `n` steps; a machine that stopped keeps its last state. -/
def stateAfter : Nat → State → State
  | 0, s => s
  | n + 1, s =>
    match step s with
    | .next t => stateAfter n t
    | .fault _ => s
    | .refused _ => s

/-- The observation of a run: its responses and the final VALID (R246). -/
def observe (n : Nat) (s : State) : List Response × BitVec 3 := (trace n s, (stateAfter n s).valid)

/-! ## Good states -/

/-- A response the block can give: an error carries UNK = 0 and four empty strings (60_exceptions.md R223), every
string has at most 16 characters (30_encoding.md R68), and they are all output characters (R67). -/
def Response.good (r : Response) : Prop :=
  (r.status ≠ .ok → r.unk = false ∧ r.reading = Reading.empty) ∧
  ∀ t ∈ [r.reading.mainValue, r.reading.mainUnit, r.reading.secValue, r.reading.secUnit],
    t.length ≤ 16 ∧ ∀ c ∈ t, c ∈ outputChars

/-- The invariant of every state: FRAME is in canonical form, and a response shown is one the block can give. -/
def State.good (s : State) : Prop :=
  Memory.wf s.frame ∧ ∀ r, s.response = some r → r.good

/-! ## The status of a command -/

/-- The status R63, R64, R200 and R222 give a command word under a VALID, read off the numbers of the table alone. -/
def expectedStatus (cmd : Byte) (valid : BitVec 3) : Status :=
  let n := cmd.toNat
  if n = 0x00 then .ok
  else if n < 0x40 then .reservedField
  else if n < 0x80 then
    if n / 16 % 4 = 3 then .chunkIndex else if 8 < n % 16 then .chunkSize else .ok
  else if n = 0x80 then
    if valid.toNat = 7 then .ok else .frameIncomplete
  else if n = 0xC0 then .ok
  else .reservedField

/-! ## The flags each display reads -/

/-- The positions the main mode reads (42_mode_unit.md R141 to R153). -/
def mainFlags (P : Params) : List Position :=
  [mainDc, mainAc, P.mainElU, P.mainElM, P.mainElA, P.mainElV, P.mainHz, P.mainHzK, P.mainHzM, P.mainDb, P.mainPct,
    P.mainT1, P.mainT2, P.mainT1T2, mainOhm P, mainOhmK P, P.mainOhmM, P.mainF, P.mainFN, P.mainFU, P.mainFM, P.mainS,
    P.mainSN]

/-- The positions the secondary unit reads (R160 to R164). -/
def secFlags (P : Params) : List Position :=
  [P.secAc, P.secDc, P.secHz, P.secHzK, P.secHzM, P.secT2, P.secElU, P.secElM, P.secElA, P.secElPct420, P.secElV]

/-- A letter whose flag is set, read as R140 writes the test: `(F[p.byte] >> p.bit) & 1 = 1`. -/
def letterIf (F : Frame) (p : Position) (t : Text) : Text :=
  if (F p.byte >>> p.bit.val) &&& 1#8 = 1#8 then t else []

/-- The rows of R144's priority table in its order: the flag of a mode, and what its rule yields (R145 to R153). -/
def modeRows (P : Params) (F : Frame) : List (Position × Text) :=
  [(P.mainHz, letterIf F P.mainHzK ['k'] ++ letterIf F P.mainHzM ['M'] ++ "HZ".toList),
    (P.mainDb, "dB".toList),
    (P.mainPct, "%".toList),
    (P.mainT1, "T1".toList),
    (P.mainT2, "T2".toList),
    (P.mainT1T2, "T1-T2".toList),
    (mainOhm P, letterIf F (mainOhmK P) ['k'] ++ letterIf F P.mainOhmM ['M'] ++ "OHM".toList),
    (P.mainF, letterIf F P.mainFN ['n'] ++ letterIf F P.mainFU ['u'] ++ letterIf F P.mainFM ['m'] ++ "F".toList),
    (P.mainS, letterIf F P.mainSN ['n'] ++ "S".toList)]

/-- What a cell adds to a digit string where its point counts (43_sign_digits.md R182, R183): '.' before the character
of a known pattern with bit 0 set. -/
def cellWithPoint (g : GlyphShapes) (v : Byte) : Text :=
  if v &&& 1#8 = 1#8 ∧ (lut g v).known = true then ['.', (lut g v).ch] else [(lut g v).ch]

/-! ## The reading cycle, as the host may rely on it -/

/-- What one reading cycle holds: for each chunk the eight bytes of its last STORE if that STORE was full, and nothing
otherwise (10_state.md R21; 20_memory.md R50). -/
abbrev Cycle := Fin 3 → Option (Fin 8 → Byte)

/-- A cycle with nothing stored: at reset, after CLEAR and after a successful DECODE (R50). -/
def Cycle.start : Cycle := fun _ => none

/-- The frame of three full chunks: byte 8c + j is byte j of chunk c (20_memory.md R42). -/
def joinChunks (x y z : Fin 8 → Byte) : Frame := fun a =>
  if h0 : a.val < 8 then x ⟨a.val, h0⟩
  else if h1 : a.val < 16 then y ⟨a.val - 8, by omega⟩
  else z ⟨a.val - 16, have h : a.val < 24 := a.isLt; by omega⟩

/-- What a command does to a cycle, and its response (R100 to R102, R200). -/
def Cycle.command (P : Params) (y : Cycle) : Instr → Cycle × Response
  | .nop => (y, Response.plain .ok)
  | .store idx len data =>
    if 3 ≤ idx then (y, Response.plain .chunkIndex)
    else if 8 < len then (y, Response.plain .chunkSize)
    else (fun c => if c.val = idx then (if len = 8 then some (lane data) else none) else y c, Response.plain .ok)
  | .decode =>
    match y 0, y 1, y 2 with
    | some b0, some b1, some b2 => (Cycle.start, decodeResponse P (joinChunks b0 b1 b2))
    | _, _, _ => (y, Response.plain .frameIncomplete)
  | .clear => (Cycle.start, Response.plain .ok)

/-- What an input of the host does to a cycle, and its response if it has one (R63, R240). -/
def Cycle.input (P : Params) (y : Cycle) : HostInput → Cycle × Option Response
  | .reset _ => (Cycle.start, none)
  | .command c =>
    match decode c with
    | .ok i => ((y.command P i).1, some (y.command P i).2)
    | .error _ => (y, some (Response.plain .reservedField))

/-- The responses a sequence of inputs gets, from a cycle. -/
def Cycle.responses (P : Params) : Cycle → List HostInput → List Response
  | _, [] => []
  | y, x :: rest => (y.input P x).2.toList ++ Cycle.responses P (y.input P x).1 rest

/-- A state that holds exactly a cycle's full chunks: VALID names them, and FRAME holds their bytes. The other bytes of
FRAME are free. -/
def Cycle.heldBy (y : Cycle) (s : State) : Prop :=
  ∀ c : Fin 3,
    match y c with
    | none => validBit s.valid c = false
    | some b => validBit s.valid c = true ∧ ∀ j : Fin 8, Memory.read s.frame (chunkAddr c j) = b j

end Sys2Proof.Machine
end

