-- ==== Sys2Proof/Certificates/Slice0/Obligations.lean ====
section
/-! DEFINITION. The statements for the provers. Each docstring names the rule of spec/ it formalises. -/

open Sys2Proof Sys2Proof.Machine

/-! ## Encoding -/

/-- Decoding a well-formed command's encoding gives the command back (30_encoding.md R60, R61, R63, R69). -/
def Obligations.DecodeInvertsEncode : Prop :=
  ∀ i : Instr, i.wellFormed = true → decode (encode i) = .ok i

/-- A command word that decodes is the encoding of what it decodes to, so each command has one word; STORE keeps its
DATA whole (R60, R61, R63). -/
def Obligations.EncodeInvertsDecode : Prop :=
  ∀ (c : Command) (i : Instr), decode c = .ok i →
    i.wellFormed = true ∧ (encode i).cmd = c.cmd ∧ ∀ idx len data, i = .store idx len data → encode i = c

/-- R63: the outcome of each of the 256 values of CMD. -/
def Obligations.CommandWordOutcomes : Prop :=
  ∀ (s : State) (c : Command) (rest : List HostInput), s.inputs = .command c :: rest →
    (c.cmd.toNat = 0x00 → step s = exec .nop { s with inputs := rest }) ∧
    (0x01 ≤ c.cmd.toNat ∧ c.cmd.toNat ≤ 0x3F ∨ 0x81 ≤ c.cmd.toNat ∧ c.cmd.toNat ≤ 0xBF ∨
        0xC1 ≤ c.cmd.toNat ∧ c.cmd.toNat ≤ 0xFF →
      step s = .next { s with
        inputs := rest
        response := some { status := .reservedField, unk := false, reading := ⟨[], [], [], []⟩ } }) ∧
    (0x40 ≤ c.cmd.toNat ∧ c.cmd.toNat ≤ 0x7F →
      step s = exec (.store (c.cmd.toNat / 16 % 4) (c.cmd.toNat % 16) c.data) { s with inputs := rest }) ∧
    (c.cmd.toNat = 0x80 → step s = exec .decode { s with inputs := rest }) ∧
    (c.cmd.toNat = 0xC0 → step s = exec .clear { s with inputs := rest })

/-- A few words written out from R60's format: OP in bits 7:6, IDX in 5:4, LEN in 3:0. -/
def Obligations.WordsDecodeAsWritten : Prop :=
  decode ⟨0b00000000#8, 0#64⟩ = .ok .nop ∧
  decode ⟨0b01011000#8, 0xBE#64⟩ = .ok (.store 1 8 0xBE#64) ∧
  decode ⟨0b01111001#8, 0x0102030405060708#64⟩ = .ok (.store 3 9 0x0102030405060708#64) ∧
  decode ⟨0b10000000#8, 0xFF#64⟩ = .ok .decode ∧
  decode ⟨0b11000000#8, 0xFF#64⟩ = .ok .clear ∧
  decode ⟨0b00111111#8, 0#64⟩ = .error (.reservedField 0x3F#8)

/-- R65: the codes of the statuses, and that codes 5, 6 and 7 stand for none. -/
def Obligations.StatusCodes : Prop :=
  [Status.ok, .frameIncomplete, .chunkIndex, .chunkSize, .reservedField].map Status.code = [0#3, 1#3, 2#3, 3#3, 4#3] ∧
  (∀ st : Status, Status.ofCode st.code = some st) ∧
  (∀ st : Status, st.code.toNat < 5) ∧
  ∀ code : BitVec 3, 5 ≤ code.toNat → Status.ofCode code = none

/-- The data word of eight bytes carries byte j on lane j, bits 8j+7:8j (R62, R69). -/
def Obligations.DataLanes : Prop :=
  ∀ (b : Vector Byte 8) (j : Fin 8),
    lane (dataOfBytes b) j = b[j] ∧ (lane (dataOfBytes b) j).toNat = (dataOfBytes b).toNat / 2 ^ (8 * j.val) % 256

/-- R70: a pseudo-command's commands are those of its expansion. -/
def Obligations.PseudoCommandsExpand : Prop :=
  (∀ a : AsmCommand, lineCommands a = (expandLine a).flatMap lineCommands) ∧
  (∀ (idx : Nat) (b : Vector Byte 8), expandLine (.storeFull idx b) = [.store idx 8 b]) ∧
  (∀ f : Vector Byte 24, expandLine (.read f) = expandLine (.loadFrame f) ++ [.decode]) ∧
  ∀ f : Vector Byte 24, ∃ b0 b1 b2 : Vector Byte 8,
    expandLine (.loadFrame f) = [.store 0 8 b0, .store 1 8 b1, .store 2 8 b2] ∧
    f.toList = b0.toList ++ b1.toList ++ b2.toList

/-! ## One step -/

/-- A step runs the decoded command: the host's next command, if it decodes to a well-formed instruction, is executed in
the state without it. -/
def Obligations.StepRunsDecodedCommand : Prop :=
  ∀ (s : State) (c : Command) (rest : List HostInput) (i : Instr),
    s.inputs = .command c :: rest → decode c = .ok i → i.wellFormed = true →
    step s = exec i { s with inputs := rest }

/-- R220: every step goes on, and every command completes with a response, after which the next input is the host's
next. -/
def Obligations.EveryCommandCompletes : Prop :=
  (∀ s : State, ∃ t, step s = .next t) ∧
  ∀ (s : State) (c : Command) (rest : List HostInput), s.inputs = .command c :: rest →
    ∃ t r, step s = .next t ∧ t.response = some r ∧ t.inputs = rest

/-- R223: a command that answers an error leaves FRAME and VALID exactly as they were. -/
def Obligations.ErrorsChangeNothing : Prop :=
  ∀ (s t : State) (c : Command) (rest : List HostInput) (r : Response),
    s.inputs = .command c :: rest → step s = .next t → t.response = some r → r.status ≠ .ok →
    t.frame = s.frame ∧ t.valid = s.valid ∧ r.unk = false ∧ r.reading = ⟨[], [], [], []⟩

/-- R222: one status per command, by the order reserved, index, size, frame incomplete; UNK only where every check
passed. -/
def Obligations.StatusPriority : Prop :=
  ∀ (s t : State) (c : Command) (rest : List HostInput) (r : Response),
    s.inputs = .command c :: rest → step s = .next t → t.response = some r →
    r.status = expectedStatus c.cmd s.valid ∧
    (r.unk = true → c.cmd = 0x80#8 ∧ s.valid = 0b111#3 ∧ r.status = .ok)

/-- R240: asserting reset sets VALID to 0b000 and gives no response, whatever command is presented with it, and the block
then takes the host's next input. -/
def Obligations.ResetInputClearsValid : Prop :=
  ∀ (s : State) (p : Option Command) (rest : List HostInput), s.inputs = .reset p :: rest →
    ∃ t, step s = .next t ∧ t.valid = 0b000#3 ∧ t.response = none ∧ t.inputs = rest ∧
      ∀ p' : Option Command, step { s with inputs := .reset p' :: rest } = .next t

/-- The model's choice (log entry 3): a step with nothing presented changes neither FRAME nor VALID and answers nothing. -/
def Obligations.IdleStepChangesNothing : Prop :=
  ∀ s : State, s.inputs = [] → step s = .next { s with response := none }

/-- The table word of an instruction, placed as the host's next command, is what the next step runs (log entries 2 and 11). -/
def Obligations.PlacedWordRunsNext : Prop :=
  ∀ (s : State) (nbits w : Nat) (i : Instr), decodeTableWord nbits w = some i →
    step (s.withFetchWord nbits w) = exec i s

/-! ## NOP, STORE and CLEAR -/

/-- R100: NOP answers OK and changes neither FRAME nor VALID; DATA is ignored; 0x01..0x3F are not NOP. -/
def Obligations.NopOnlyAnswers : Prop :=
  (∀ s : State, exec .nop s = .next { s with
    response := some { status := .ok, unk := false, reading := ⟨[], [], [], []⟩ } }) ∧
  ∀ (s : State) (cmd : Byte) (data : Data) (rest : List HostInput), s.inputs = .command ⟨cmd, data⟩ :: rest →
    (cmd = 0x00#8 → step s = .next { s with
      inputs := rest
      response := some { status := .ok, unk := false, reading := ⟨[], [], [], []⟩ } }) ∧
    (0x01 ≤ cmd.toNat ∧ cmd.toNat ≤ 0x3F → step s = .next { s with
      inputs := rest
      response := some { status := .reservedField, unk := false, reading := ⟨[], [], [], []⟩ } })

/-- R101: a STORE of at most 8 bytes into chunk c answers OK, writes its lanes at 8c, leaves every other byte, and VALID[c]
says whether all 8 bytes were given. -/
def Obligations.StoreWritesItsChunk : Prop :=
  ∀ (s : State) (c : Fin 3) (len : Nat) (data : Data), len ≤ 8 →
    ∃ t, exec (.store c.val len data) s = .next t ∧
      t.response = some { status := .ok, unk := false, reading := ⟨[], [], [], []⟩ } ∧
      t.inputs = s.inputs ∧
      (∀ j : Fin 8, (chunkAddr c j).val = 8 * c.val + j.val) ∧
      (∀ j : Fin 8, j.val < len → Memory.read t.frame (chunkAddr c j) = lane data j) ∧
      (∀ a : FrameAddr, (∀ j : Fin 8, j.val < len → a ≠ chunkAddr c j) →
        Memory.read t.frame a = Memory.read s.frame a) ∧
      ∀ d : Fin 3, validBit t.valid d = if d = c then decide (len = 8) else validBit s.valid d

/-- R64: IDX = 3 raises CHUNK_INDEX whatever LEN is, and LEN in 9..15 raises CHUNK_SIZE for a chunk that exists; nothing
else changes. -/
def Obligations.StoreFieldErrors : Prop :=
  ∀ (s : State) (len : Nat) (data : Data),
    exec (.store 3 len data) s = .next { s with
      response := some { status := .chunkIndex, unk := false, reading := ⟨[], [], [], []⟩ } } ∧
    ∀ c : Fin 3, 9 ≤ len → len ≤ 15 →
      exec (.store c.val len data) s = .next { s with
        response := some { status := .chunkSize, unk := false, reading := ⟨[], [], [], []⟩ } }

/-- R101, R62: the lanes at or beyond LEN are ignored. -/
def Obligations.StoreIgnoresLanesPastLen : Prop :=
  ∀ (s : State) (idx len : Nat) (x y : Data), (∀ j : Fin 8, j.val < len → lane x j = lane y j) →
    exec (.store idx len x) s = exec (.store idx len y) s

/-- R102: CLEAR answers OK, clears VALID and leaves FRAME; the following DECODE answers FRAME_INCOMPLETE; DATA is ignored;
0xC1..0xFF are not CLEAR. -/
def Obligations.ClearDiscardsFrame : Prop :=
  (∀ s : State, exec .clear s = .next { s with
    valid := 0b000#3
    response := some { status := .ok, unk := false, reading := ⟨[], [], [], []⟩ } }) ∧
  (∀ s t : State, exec .clear s = .next t → exec .decode t = .next { t with
    response := some { status := .frameIncomplete, unk := false, reading := ⟨[], [], [], []⟩ } }) ∧
  ∀ (s : State) (cmd : Byte) (data : Data) (rest : List HostInput), s.inputs = .command ⟨cmd, data⟩ :: rest →
    (cmd = 0xC0#8 → step s = exec .clear { s with inputs := rest }) ∧
    (0xC1 ≤ cmd.toNat → step s = .next { s with
      inputs := rest
      response := some { status := .reservedField, unk := false, reading := ⟨[], [], [], []⟩ } })

/-! ## DECODE -/

/-- R200: with VALID = 0b111, DECODE answers OK with DECODE_FN of the 24 bytes and clears VALID; FRAME keeps its bytes. -/
def Obligations.DecodeAnswersReading : Prop :=
  ∀ s : State, s.valid = 0b111#3 →
    exec .decode s = .next { s with
      valid := 0b000#3
      response := some
        { status := .ok
          unk := (decodeFn Config.params (fun a => Memory.read s.frame a)).2
          reading := (decodeFn Config.params (fun a => Memory.read s.frame a)).1 } }

/-- R200, R221: with any other VALID, DECODE answers FRAME_INCOMPLETE and changes nothing. -/
def Obligations.DecodeRefusesIncompleteFrame : Prop :=
  ∀ s : State, s.valid ≠ 0b111#3 →
    exec .decode s = .next { s with
      response := some { status := .frameIncomplete, unk := false, reading := ⟨[], [], [], []⟩ } }

/-- R200: a DECODE right after a successful one, or after a short STORE of any chunk, answers FRAME_INCOMPLETE. -/
def Obligations.DecodeNeedsFreshChunks : Prop :=
  (∀ s t u : State, s.valid = 0b111#3 → exec .decode s = .next t → exec .decode t = .next u →
    ∃ r, u.response = some r ∧ r.status = .frameIncomplete ∧ u.frame = s.frame) ∧
  ∀ (s t u : State) (c : Fin 3) (len : Nat) (data : Data), len < 8 →
    exec (.store c.val len data) s = .next t → exec .decode t = .next u →
    ∃ r, u.response = some r ∧ r.status = .frameIncomplete ∧ u.frame = t.frame

/-- R66: UNK is 1 exactly in the response of a successful DECODE in which a main or secondary look-up found no entry, the
first and last main cells looked up without their point bit. -/
def Obligations.UnkReportsUnknownCells : Prop :=
  ∀ (s t : State) (c : Command) (rest : List HostInput) (r : Response),
    s.inputs = .command c :: rest → step s = .next t → t.response = some r →
    (r.unk = true ↔ c.cmd = 0x80#8 ∧ s.valid = 0b111#3 ∧
      ((∃ v ∈ [Memory.read s.frame 3 &&& 0xFE#8, Memory.read s.frame 4, Memory.read s.frame 5, Memory.read s.frame 6,
          Memory.read s.frame 7, Memory.read s.frame 8 &&& 0xFE#8],
          (lut Config.params.glyphShapes v).known = false) ∨
        ∃ n ∈ Config.params.secCells.cells, (lut Config.params.glyphShapes (Memory.read s.frame n)).known = false))

/-! ## The glyph table -/

/-- R120, R122, R126: a pattern is known exactly when its shape has an entry; a known pattern has its point by bit 0 and
the shape's character; an unknown one is " ?" without a point. The point bit never changes the character. That '?' is the
character of unknown patterns alone is the model's reading: no glyph character is '?' (closed set, log entry 7). -/
def Obligations.GlyphOfPattern : Prop :=
  ∀ (g : GlyphShapes) (v : Byte),
    (∀ ch, g.lookup (BitVec.ofNat 7 (v.toNat / 2)) = some ch →
      lut g v = { pt := if v.toNat % 2 = 1 then '.' else ' ', ch := glyphChar ch, known := true }) ∧
    (g.lookup (BitVec.ofNat 7 (v.toNat / 2)) = none → lut g v = { pt := ' ', ch := '?', known := false }) ∧
    ((lut g v).ch = '?' ↔ (lut g v).known = false) ∧
    (lut g (v &&& 0xFE#8)).ch = (lut g v).ch

/-- R121, R126 for the default table: the 19 rows by their byte without the point, and 38 known patterns of 256. The rows
but 'd' are the spec's general knowledge (log entry 8). -/
def Obligations.StandardGlyphTable : Prop :=
  (∀ row ∈ [(0xBE#8, '0'), (0xA0#8, '1'), (0xDA#8, '2'), (0xF8#8, '3'), (0xE4#8, '4'), (0x7C#8, '5'), (0x7E#8, '6'),
      (0xA8#8, '7'), (0xFE#8, '8'), (0xFC#8, '9'), (0x16#8, 'L'), (0xF2#8, 'd'), (0x20#8, 'i'), (0x72#8, 'o'),
      (0x62#8, 'n'), (0x5E#8, 'E'), (0x42#8, 'r'), (0x1E#8, 'C'), (0x4E#8, 'F')],
    lut standardShapes row.1 = { pt := ' ', ch := row.2, known := true } ∧
    lut standardShapes (row.1 ||| 1#8) = { pt := '.', ch := row.2, known := true }) ∧
  ((List.range 256).filter (fun n => (lut standardShapes (BitVec.ofNat 8 n)).known)).length = 38

/-- The model's reading of R123 and R125 (log entry 7): whatever the table, 0xF2 and 0xF3 are 'd' and a dark cell is
unknown. -/
def Obligations.EveryTableHasDAndNoBlank : Prop :=
  ∀ g : GlyphShapes,
    lut g 0xF2#8 = { pt := ' ', ch := 'd', known := true } ∧ lut g 0xF3#8 = { pt := '.', ch := 'd', known := true } ∧
    lut g 0x00#8 = { pt := ' ', ch := '?', known := false } ∧ lut g 0x01#8 = { pt := ' ', ch := '?', known := false }

/-! ## Modes and units -/

/-- R140: the flag test, and the two orders of the ohm pair. -/
def Obligations.FlagTest : Prop :=
  (∀ (F : Frame) (p : Position), flag F p = true ↔ (F p.byte >>> p.bit.val) &&& 1#8 = 1#8) ∧
  (∀ P : Params, P.ohmAtBit3 = true → mainOhm P = ⟨15, 3⟩ ∧ mainOhmK P = ⟨15, 1⟩) ∧
  ∀ P : Params, P.ohmAtBit3 = false → mainOhm P = ⟨15, 1⟩ ∧ mainOhmK P = ⟨15, 3⟩

/-- R141: the main electrical kind, from bit 7 of byte 2 and bit 3 of byte 1. -/
def Obligations.MainElectricalKind : Prop :=
  ∀ F : Frame, (mainKind F).map MainKind.text =
    match (F 2).getLsbD 7, (F 1).getLsbD 3 with
    | true, true => some "AC+DC".toList
    | false, true => some "DC".toList
    | true, false => some "AC".toList
    | false, false => none

/-- R142: the decorations in the order u, m, A, V, each on its own account, before the kind. -/
def Obligations.MainElectricalMode : Prop :=
  ∀ (P : Params) (F : Frame) (k : MainKind), mainKind F = some k →
    mainMode P F = letterIf F P.mainElU ['u'] ++ letterIf F P.mainElM ['m'] ++ letterIf F P.mainElA ['A'] ++
      letterIf F P.mainElV ['V'] ++ k.text

/-- R143: with an electrical kind, nothing of the other path is read: moving its flags anywhere changes nothing; without
one, the non-electrical list gives the mode. -/
def Obligations.ModePathsAreExclusive : Prop :=
  (∀ (P Q : Params) (F : Frame), mainKind F ≠ none → P.mainElU = Q.mainElU → P.mainElM = Q.mainElM →
    P.mainElA = Q.mainElA → P.mainElV = Q.mainElV → mainMode P F = mainMode Q F) ∧
  ∀ (P Q : Params) (F : Frame), mainKind F = none →
    mainMode P F = mainNonElectrical P F ∧
    mainMode { P with mainElU := Q.mainElU, mainElM := Q.mainElM, mainElA := Q.mainElA, mainElV := Q.mainElV } F =
      mainMode P F

/-- R144: the first row of the priority table whose flag is set gives the mode, and "" where none is. -/
def Obligations.NonElectricalPriority : Prop :=
  ∀ (P : Params) (F : Frame),
    mainNonElectrical P F =
      match (modeRows P F).find? (fun row => flag F row.1) with
      | some row => row.2
      | none => []

/-- R151: with bits 3 and 1 of byte 15 set, no electrical kind, no earlier mode and no mega flag, the mode is "kOHM" under
either value of OHM_AT_BIT3. -/
def Obligations.KiloOhmUnderEitherOrder : Prop :=
  ∀ (P : Params) (F : Frame), (F 15).getLsbD 3 = true → (F 15).getLsbD 1 = true → mainKind F = none →
    flag F P.mainHz = false → flag F P.mainDb = false → flag F P.mainPct = false → flag F P.mainT1 = false →
    flag F P.mainT2 = false → flag F P.mainT1T2 = false → flag F P.mainOhmM = false →
    mainMode P F = "kOHM".toList

/-- R155, R166: the lengths of the mode strings, and that a main mode starts with 'T' only as T1, T2 or T1-T2. -/
def Obligations.ModeStringShapes : Prop :=
  ∀ (P : Params) (F : Frame),
    (mainMode P F).length ≤ 9 ∧ (secUnit P F).length ≤ 13 ∧
    (startsWithT (mainMode P F) = true ↔ mainMode P F ∈ ["T1".toList, "T2".toList, "T1-T2".toList]) ∧
    (mainKind F ≠ none → ∃ c ∈ ['u', 'm', 'A', 'V', 'D'], (mainMode P F).head? = some c)

/-- R160 to R166: the secondary unit, AC before DC before HZ before T2; it never holds a '+'. -/
def Obligations.SecondaryUnit : Prop :=
  ∀ (P : Params) (F : Frame),
    secUnit P F =
      (if flag F P.secAc = true ∨ flag F P.secDc = true then
        letterIf F P.secElU ['u'] ++ letterIf F P.secElM ['m'] ++ letterIf F P.secElA ['A'] ++
          letterIf F P.secElPct420 "%4-20mA".toList ++ letterIf F P.secElV ['V'] ++
          (if flag F P.secAc = true then "AC".toList else "DC".toList)
      else if flag F P.secHz = true then
        letterIf F P.secHzK ['k'] ++ letterIf F P.secHzM ['M'] ++ "HZ".toList
      else if flag F P.secT2 = true then "T2".toList
      else []) ∧
    '+' ∉ secUnit P F

/-- R167: each display's unit depends on its own flags alone. -/
def Obligations.DisplaysReadOwnFlags : Prop :=
  ∀ (P : Params) (F G : Frame),
    ((∀ p ∈ mainFlags P, flag F p = flag G p) → mainMode P F = mainMode P G) ∧
    ((∀ p ∈ secFlags P, flag F p = flag G p) → secUnit P F = secUnit P G)

/-! ## Signs and digits -/

/-- R180, R181: a '-' leads the value exactly when the sign flag is set, whatever the digits are; no other '-' and no '+'
is ever produced, the glyph characters being the source's closed set (log entry 7). -/
def Obligations.SignLeadsValue : Prop :=
  ∀ (P : Params) (F : Frame),
    ((decodeFn P F).1.mainValue.head? = some '-' ↔ (F 2).getLsbD 0 = true) ∧
    ((decodeFn P F).1.secValue.head? = some '-' ↔ flag F P.secSign = true) ∧
    '-' ∉ (decodeFn P F).1.mainValue.tail ∧ '-' ∉ (decodeFn P F).1.secValue.tail ∧
    '+' ∉ (decodeFn P F).1.mainValue ∧ '+' ∉ (decodeFn P F).1.secValue

/-- R182: six cells, bytes 3..8 left to right, one character each; a point before the character of a known middle cell
with bit 0 set, never at the first or last cell, where clearing bit 0 leaves the character; a cell is unknown exactly where
it adds '?'. The last two clauses rest on the closed set of glyph characters, without '.' and '?' (log entry 7). -/
def Obligations.MainDigitString : Prop :=
  ∀ (P : Params) (F : Frame),
    mainDigits P F =
      [(lut P.glyphShapes (F 3)).ch] ++ cellWithPoint P.glyphShapes (F 4) ++ cellWithPoint P.glyphShapes (F 5) ++
        cellWithPoint P.glyphShapes (F 6) ++ cellWithPoint P.glyphShapes (F 7) ++ [(lut P.glyphShapes (F 8)).ch] ∧
    6 ≤ (mainDigits P F).length ∧ (mainDigits P F).length ≤ 10 ∧
    (mainDigits P F).filter (fun c => decide (c ≠ '.')) =
      [F 3, F 4, F 5, F 6, F 7, F 8].map (fun v => (lut P.glyphShapes v).ch) ∧
    (anyUnknown P.glyphShapes (mainCellBytes F) = true ↔
      ∃ v ∈ [F 3, F 4, F 5, F 6, F 7, F 8], (lut P.glyphShapes v).ch = '?')

/-- R183: the cells of SEC_CELLS left to right, a point taken at every cell; a cell is unknown exactly where it adds '?'.
The last two clauses rest on the closed set of glyph characters, without '.' and '?' (log entry 7). -/
def Obligations.SecondaryDigitString : Prop :=
  ∀ (P : Params) (F : Frame),
    secDigits P F = P.secCells.cells.flatMap (fun n => cellWithPoint P.glyphShapes (F n)) ∧
    P.secCells.cells.length ≤ (secDigits P F).length ∧ (secDigits P F).length ≤ 2 * P.secCells.cells.length ∧
    (secDigits P F).filter (fun c => decide (c ≠ '.')) = P.secCells.cells.map (fun n => (lut P.glyphShapes (F n)).ch) ∧
    (anyUnknown P.glyphShapes (secCellBytes P F) = true ↔
      ∃ n ∈ P.secCells.cells, (lut P.glyphShapes (F n)).ch = '?')

/-- R184: in a temperature mode the character of cell 5 leaves the value and becomes the unit's suffix; in every other mode
nothing moves; the secondary display is not touched. -/
def Obligations.TemperatureMovesLastDigit : Prop :=
  (∀ (P : Params) (F : Frame),
    (startsWithT (mainMode P F) = true ↔ mainMode P F ∈ ["T1".toList, "T2".toList, "T1-T2".toList]) ∧
    (mainMode P F ∈ ["T1".toList, "T2".toList, "T1-T2".toList] →
      ∃ digits, mainDigits P F = digits ++ [(lut P.glyphShapes (F 8)).ch] ∧
        (decodeFn P F).1.mainValue = letterIf F ⟨2, 0⟩ ['-'] ++ digits ∧
        (decodeFn P F).1.mainUnit = mainMode P F ++ [' ', (lut P.glyphShapes (F 8)).ch]) ∧
    (mainMode P F ∉ ["T1".toList, "T2".toList, "T1-T2".toList] →
      (decodeFn P F).1.mainValue = letterIf F ⟨2, 0⟩ ['-'] ++ mainDigits P F ∧
      (decodeFn P F).1.mainUnit = mainMode P F) ∧
    (decodeFn P F).1.secUnit = secUnit P F ∧
    (decodeFn P F).1.secValue = letterIf F P.secSign ['-'] ++ secDigits P F) ∧
  temperaturePost "T1".toList "1234".toList = ("123".toList, "T1 4".toList)

/-! ## The response on the ports -/

/-- R68: the lengths of the four strings of every Reading fit their ports. -/
def Obligations.ReadingFitsPorts : Prop :=
  ∀ (P : Params) (F : Frame),
    (decodeFn P F).1.mainValue.length ≤ 11 ∧ (decodeFn P F).1.mainUnit.length ≤ 9 ∧
    (decodeFn P F).1.secValue.length ≤ 1 + 2 * P.secCells.cells.length ∧
    (decodeFn P F).1.secValue.length ≤ 15 ∧ (decodeFn P F).1.secUnit.length ≤ 13 ∧
    (startsWithT (mainMode P F) = true → (decodeFn P F).1.mainValue.length ≤ 10)

/-- R67: every character of every response is one of the output characters, and only a successful DECODE answers a string
that is not empty. Rests on the closed set of glyph characters (log entry 7). -/
def Obligations.ResponsesUseOutputCharacters : Prop :=
  ∀ (s t : State) (r : Response), step s = .next t → t.response = some r →
    (∀ x ∈ [r.reading.mainValue, r.reading.mainUnit, r.reading.secValue, r.reading.secUnit], ∀ ch ∈ x,
      ch ∈ outputChars) ∧
    (r.reading ≠ ⟨[], [], [], []⟩ → r.status = .ok ∧ s.valid = 0b111#3 ∧ t.valid = 0b000#3)

/-- R68: a port gives the length and the ASCII codes, 0x00 past the end; the host reads the string back from it. -/
def Obligations.PortCarriesString : Prop :=
  ∀ x : Text, x.length ≤ 16 →
    (toPort x).length.toNat = x.length ∧
    (∀ k : Fin 16, (toPort x).bytes[k] = if h : k.val < x.length then BitVec.ofNat 8 (x[k.val]'h).toNat else 0x00#8) ∧
    ((∀ ch ∈ x, ch ∈ outputChars) → ofPort (toPort x) = x)

/-- R22: BITS is FRAME read bit 7 first, and determines it. -/
def Obligations.BitsViewOfFrame : Prop :=
  (∀ (s : State) (n : FrameAddr), (s.bits n).length = 8 ∧
    ∀ k : Fin 8, (s.bits n)[k.val]? = some (if (Memory.read s.frame n).getLsbD (7 - k.val) then '1' else '0')) ∧
  ∀ v w : Byte, bitString v = bitString w → v = w

/-! ## Whole-machine rules -/

/-- R20: a byte of FRAME changes in a step only where a STORE without error writes it, or where reset is asserted. -/
def Obligations.OnlyStoreWritesFrame : Prop :=
  ∀ (s t : State) (a : FrameAddr), step s = .next t → Memory.read t.frame a ≠ Memory.read s.frame a →
    (∃ p rest, s.inputs = .reset p :: rest) ∨
    ∃ (c : Command) (rest : List HostInput) (idx len : Nat), s.inputs = .command c :: rest ∧
      decode c = .ok (.store idx len c.data) ∧ idx < 3 ∧ len ≤ 8 ∧ 8 * idx ≤ a.val ∧ a.val < 8 * idx + len

/-- R21: a VALID bit after a command: STORE sets or clears the bit of its chunk, CLEAR and a successful DECODE clear all
three, and nothing else writes one. -/
def Obligations.ValidBitAfterCommand : Prop :=
  ∀ (s t : State) (c : Command) (rest : List HostInput) (d : Fin 3),
    s.inputs = .command c :: rest → step s = .next t →
    validBit t.valid d =
      if 0x40 ≤ c.cmd.toNat ∧ c.cmd.toNat < 0x80 ∧ c.cmd.toNat / 16 % 4 = d.val ∧ c.cmd.toNat % 16 ≤ 8 then
        decide (c.cmd.toNat % 16 = 8)
      else if c.cmd.toNat = 0xC0 ∨ c.cmd.toNat = 0x80 ∧ s.valid = 0b111#3 then false
      else validBit s.valid d

/-- The state after reset is a good state with VALID = 0b000 (R28). -/
def Obligations.ResetStateGood : Prop :=
  State.reset.good ∧ State.reset.valid = 0b000#3

/-- Every step keeps a good state good: FRAME stays in canonical form, and the response shown is one the block can give
(R223, R67, R68; the closed set of glyph characters is log entry 7). -/
def Obligations.StepKeepsGood : Prop :=
  ∀ s t : State, s.good → step s = .next t → t.good

/-- R28, R50: bytes of chunks that VALID does not name cannot be observed: two states that agree on VALID, on the host's
inputs and on the bytes of the chunks VALID names have the same observation in every run. -/
def Obligations.UnstoredBytesUnobservable : Prop :=
  ∀ (n : Nat) (s t : State), s.inputs = t.inputs → s.valid = t.valid →
    (∀ (c : Fin 3) (j : Fin 8), validBit s.valid c = true →
      Memory.read s.frame (chunkAddr c j) = Memory.read t.frame (chunkAddr c j)) →
    observe n s = observe n t

/-- R21, R50, R202: the responses of a run are those of a reference that keeps, per chunk, only the bytes of a full STORE
since the last reset, CLEAR or successful DECODE. -/
def Obligations.RunsFollowReadingCycles : Prop :=
  ∀ (n : Nat) (s : State) (y : Cycle), y.heldBy s → trace n s = y.responses Config.params (s.inputs.take n)

/-- R202, R242: three full STOREs in any order and a DECODE, from any state, answer the Reading of the 24 bytes stored. -/
def Obligations.ReadingCycleFromAnyState : Prop :=
  ∀ (s : State) (f : Vector Byte 24) (order : List (Fin 3)) (rest : List HostInput), order.Perm [0, 1, 2] →
    s.inputs = order.map (fun c => HostInput.command (storeOf c.val 8 (chunkBytesOf f c))) ++
      .command (encode .decode) :: rest →
    ∃ t, Host.Core.run Sys2Proof.core 4 s = .next t ∧
      t.response = some { status := .ok
                          unk := (decodeFn Config.params (fun a => f[a])).2
                          reading := (decodeFn Config.params (fun a => f[a])).1 } ∧
      t.valid = 0b000#3 ∧ t.inputs = rest ∧ ∀ a : FrameAddr, Memory.read t.frame a = f[a]
end

