-- ==== Sys2Proof/Laws/Memory.lean ====
section
/-! SUPPORT. The laws of the frame buffer: what a read answers after a write, and that every operation keeps the
canonical form. -/

namespace Sys2Proof.Machine

/-! ## Reading after writing -/

theorem Memory.readAt_erase (m : Memory) (a k : Nat) :
    Memory.readAt (Memory.erase m a) k = if k = a then frameUnwritten else Memory.readAt m k := by
  induction m with
  | nil => simp [Memory.erase, Memory.readAt]
  | cons cell rest ih =>
    obtain ⟨n, v⟩ := cell
    unfold Memory.erase at ih ⊢
    by_cases hn : n = a
    · subst hn
      simp only [List.filter_cons, ne_eq, not_true_eq_false, decide_false, Bool.false_eq_true, if_false, ih,
        Memory.readAt]
      by_cases hk : k = n
      · simp [hk]
      · simp [hk, Ne.symm hk]
    · simp only [List.filter_cons, ne_eq, hn, not_false_eq_true, decide_true, if_true, Memory.readAt, ih]
      by_cases hk : n = k
      · subst hk
        simp [hn]
      · simp [hk]

theorem Memory.readAt_insert (m : Memory) (a k : Nat) (b : Byte) (h : ∀ c ∈ m, c.1 ≠ a) :
    Memory.readAt (Memory.insert m a b) k = if k = a then b else Memory.readAt m k := by
  induction m with
  | nil =>
    by_cases hk : k = a
    · simp [Memory.insert, Memory.readAt, hk]
    · simp [Memory.insert, Memory.readAt, hk, Ne.symm hk]
  | cons cell rest ih =>
    obtain ⟨n, v⟩ := cell
    have hn : n ≠ a := h (n, v) (by simp)
    have ih' := ih (fun c hc => h c (by simp [hc]))
    unfold Memory.insert
    by_cases hlt : a < n
    · by_cases hk : k = a
      · simp [hlt, Memory.readAt, hk]
      · simp [hlt, Memory.readAt, hk, Ne.symm hk]
    · simp only [hlt, if_false, Memory.readAt, ih']
      by_cases hk : n = k
      · subst hk
        simp [hn]
      · simp [hk]

theorem Memory.erase_ne (m : Memory) (a : Nat) : ∀ c ∈ Memory.erase m a, c.1 ≠ a := by
  intro c hc
  simpa [Memory.erase] using (List.mem_filter.mp hc).2

/-- FRAME[k] after FRAME[a] <- b. -/
@[simp] theorem Memory.read_write (m : Memory) (a k : FrameAddr) (b : Byte) :
    Memory.read (Memory.write m a b) k = if k = a then b else Memory.read m k := by
  unfold Memory.read Memory.write
  by_cases hb : b = frameUnwritten
  · simp only [hb, if_true, Memory.readAt_erase, Fin.ext_iff]
  · simp only [hb, if_false, Memory.readAt_insert _ _ _ _ (Memory.erase_ne m a.val), Memory.readAt_erase,
      Fin.ext_iff]
    by_cases hk : k.val = a.val <;> simp [hk]

/-! ## Lanes -/

/-- Two lanes of two chunks have one offset only if they are the same lane of the same chunk. -/
theorem chunkAddr_inj (c d : Fin 3) (i j : Fin 8) : chunkAddr c i = chunkAddr d j ↔ c = d ∧ i = j := by
  revert c d i j
  decide

/-- `lanes` lists every lane. -/
theorem mem_lanes (j : Fin 8) : j ∈ lanes := by
  revert j
  decide

/-- Every frame offset is a lane of a chunk. -/
theorem chunkAddr_surj (a : FrameAddr) : ∃ c j, a = chunkAddr c j := by
  revert a
  decide

/-- FRAME after the lanes below `len` are written to chunk c: those bytes are the lanes, every other byte is as before. -/
theorem Memory.read_writeLanes (m : Memory) (c d : Fin 3) (len : Nat) (data : Data) (j : Fin 8) :
    Memory.read (Memory.writeLanes m c len data) (chunkAddr d j) =
      if d = c ∧ j.val < len then lane data j else Memory.read m (chunkAddr d j) := by
  have key : ∀ (l : List (Fin 8)) (m' : Memory),
      Memory.read (l.foldl (fun m'' i => if i.val < len then Memory.write m'' (chunkAddr c i) (lane data i) else m'') m')
          (chunkAddr d j) =
        if d = c ∧ j.val < len ∧ j ∈ l then lane data j else Memory.read m' (chunkAddr d j) := by
    intro l
    induction l with
    | nil => intro m'; simp
    | cons i rest ih =>
      intro m'
      rw [List.foldl_cons, ih]
      by_cases hrest : d = c ∧ j.val < len ∧ j ∈ rest
      · have hcons : d = c ∧ j.val < len ∧ j ∈ i :: rest := ⟨hrest.1, hrest.2.1, by simp [hrest.2.2]⟩
        rw [if_pos hrest, if_pos hcons]
      · rw [if_neg hrest]
        by_cases hi : i.val < len
        · rw [if_pos hi, Memory.read_write]
          by_cases hji : d = c ∧ j = i
          · obtain ⟨rfl, rfl⟩ := hji
            simp [hi]
          · rw [if_neg (fun h => hji ((chunkAddr_inj d c j i).mp h)), if_neg]
            rintro ⟨hd, hj, hmem⟩
            rcases List.mem_cons.mp hmem with h | h
            · exact hji ⟨hd, h⟩
            · exact hrest ⟨hd, hj, h⟩
        · rw [if_neg hi, if_neg]
          rintro ⟨hd, hj, hmem⟩
          rcases List.mem_cons.mp hmem with h | h
          · exact hi (h ▸ hj)
          · exact hrest ⟨hd, hj, h⟩
  unfold Memory.writeLanes
  rw [key]
  simp [mem_lanes]

/-! ## The canonical form -/

theorem Memory.wf_nil : Memory.wf [] := by simp [Memory.wf]

theorem Memory.wf_erase (m : Memory) (a : Nat) (h : Memory.wf m) : Memory.wf (Memory.erase m a) :=
  ⟨h.1.filter _, fun c hc => h.2 c (List.mem_of_mem_filter hc)⟩

theorem Memory.mem_insert (m : Memory) (a : Nat) (b : Byte) (c : Host.Cell) (h : c ∈ Memory.insert m a b) :
    c = (a, b) ∨ c ∈ m := by
  induction m with
  | nil => simpa [Memory.insert] using h
  | cons cell rest ih =>
    unfold Memory.insert at h
    by_cases hlt : a < cell.1
    · rw [if_pos hlt] at h
      simpa using h
    · rw [if_neg hlt] at h
      rcases List.mem_cons.mp h with h | h
      · exact .inr (by simp [h])
      · rcases ih h with h | h
        · exact .inl h
        · exact .inr (by simp [h])

theorem Memory.wf_insert (m : Memory) (a : Nat) (b : Byte) (h : Memory.wf m) (ha : a < frameBytes)
    (hb : b ≠ frameUnwritten) (hne : ∀ c ∈ m, c.1 ≠ a) : Memory.wf (Memory.insert m a b) := by
  refine ⟨?_, fun c hc => ?_⟩
  · induction m with
    | nil => simp [Memory.insert]
    | cons cell rest ih =>
      have hp := List.pairwise_cons.mp h.1
      unfold Memory.insert
      by_cases hlt : a < cell.1
      · rw [if_pos hlt]
        refine List.pairwise_cons.mpr ⟨fun c hc => ?_, h.1⟩
        rcases List.mem_cons.mp hc with hc | hc
        · simpa [hc] using hlt
        · exact Nat.lt_trans hlt (hp.1 c hc)
      · rw [if_neg hlt]
        have hrest : Memory.wf rest := ⟨hp.2, fun c hc => h.2 c (by simp [hc])⟩
        refine List.pairwise_cons.mpr ⟨fun c hc => ?_, ih hrest (fun c hc => hne c (by simp [hc]))⟩
        rcases Memory.mem_insert rest a b c hc with hc | hc
        · have := hne cell (by simp)
          simp only [hc]
          omega
        · exact hp.1 c hc
  · rcases Memory.mem_insert m a b c hc with hc | hc
    · exact hc ▸ ⟨ha, hb⟩
    · exact h.2 c hc

/-- A write keeps the canonical form. -/
theorem Memory.wf_write (m : Memory) (a : FrameAddr) (b : Byte) (h : Memory.wf m) : Memory.wf (Memory.write m a b) := by
  unfold Memory.write
  by_cases hb : b = frameUnwritten
  · rw [if_pos hb]
    exact Memory.wf_erase m a.val h
  · rw [if_neg hb]
    exact Memory.wf_insert _ _ _ (Memory.wf_erase m a.val h) a.isLt hb (Memory.erase_ne m a.val)

/-- A STORE's write keeps the canonical form. -/
theorem Memory.wf_writeLanes (m : Memory) (c : Fin 3) (len : Nat) (data : Data) (h : Memory.wf m) :
    Memory.wf (Memory.writeLanes m c len data) := by
  have key : ∀ (l : List (Fin 8)) (m' : Memory), Memory.wf m' → Memory.wf
      (l.foldl (fun m'' i => if i.val < len then Memory.write m'' (chunkAddr c i) (lane data i) else m'') m') := by
    intro l
    induction l with
    | nil => exact fun m' h' => h'
    | cons i rest ih =>
      intro m' h'
      rw [List.foldl_cons]
      refine ih _ ?_
      by_cases hi : i.val < len
      · rw [if_pos hi]
        exact Memory.wf_write _ _ _ h'
      · rw [if_neg hi]
        exact h'
  exact key lanes m h

/-- Memory at reset is in canonical form. -/
theorem reset_frame_wf : Memory.wf State.reset.frame := Memory.wf_nil

/-- FRAME[k] at reset: the value log entry 4 names. -/
theorem read_reset (k : FrameAddr) : Memory.read State.reset.frame k = frameUnwritten := rfl

end Sys2Proof.Machine
end

