-- ==== Sys2Proof/Laws/State.lean ====
section
/-! SUPPORT. One lemma per field of State and update: no later proof unfolds a record update. -/

namespace Sys2Proof.Machine

variable (s : State)

@[simp] theorem State.respond_frame (r : Response) : (s.respond r).frame = s.frame := rfl
@[simp] theorem State.respond_valid (r : Response) : (s.respond r).valid = s.valid := rfl
@[simp] theorem State.respond_response (r : Response) : (s.respond r).response = some r := rfl
@[simp] theorem State.respond_inputs (r : Response) : (s.respond r).inputs = s.inputs := rfl

@[simp] theorem State.raise_frame (st : Status) : (s.raise st).frame = s.frame := rfl
@[simp] theorem State.raise_valid (st : Status) : (s.raise st).valid = s.valid := rfl
@[simp] theorem State.raise_response (st : Status) : (s.raise st).response = some (Response.plain st) := rfl
@[simp] theorem State.raise_inputs (st : Status) : (s.raise st).inputs = s.inputs := rfl

@[simp] theorem State.setFrame_frame (m : Memory) : (s.setFrame m).frame = m := rfl
@[simp] theorem State.setFrame_valid (m : Memory) : (s.setFrame m).valid = s.valid := rfl
@[simp] theorem State.setFrame_response (m : Memory) : (s.setFrame m).response = s.response := rfl
@[simp] theorem State.setFrame_inputs (m : Memory) : (s.setFrame m).inputs = s.inputs := rfl

@[simp] theorem State.setValid_frame (v : BitVec 3) : (s.setValid v).frame = s.frame := rfl
@[simp] theorem State.setValid_valid (v : BitVec 3) : (s.setValid v).valid = v := rfl
@[simp] theorem State.setValid_response (v : BitVec 3) : (s.setValid v).response = s.response := rfl
@[simp] theorem State.setValid_inputs (v : BitVec 3) : (s.setValid v).inputs = s.inputs := rfl

@[simp] theorem State.idle_frame : s.idle.frame = s.frame := rfl
@[simp] theorem State.idle_valid : s.idle.valid = s.valid := rfl
@[simp] theorem State.idle_response : s.idle.response = none := rfl
@[simp] theorem State.idle_inputs : s.idle.inputs = s.inputs := rfl

@[simp] theorem State.assertReset_frame : s.assertReset.frame = State.reset.frame := rfl
@[simp] theorem State.assertReset_valid : s.assertReset.valid = State.reset.valid := rfl
@[simp] theorem State.assertReset_response : s.assertReset.response = none := rfl
@[simp] theorem State.assertReset_inputs : s.assertReset.inputs = s.inputs := rfl

@[simp] theorem State.presentNext_frame (c : Command) : (s.presentNext c).frame = s.frame := rfl
@[simp] theorem State.presentNext_valid (c : Command) : (s.presentNext c).valid = s.valid := rfl
@[simp] theorem State.presentNext_response (c : Command) : (s.presentNext c).response = s.response := rfl
@[simp] theorem State.presentNext_inputs (c : Command) : (s.presentNext c).inputs = .command c :: s.inputs := rfl

@[simp] theorem State.rejectCommand_eq (e : DecodeError) : s.rejectCommand e = s.raise .reservedField := by
  cases e
  rfl

@[simp] theorem Response.plain_status (st : Status) : (Response.plain st).status = st := rfl
@[simp] theorem Response.plain_unk (st : Status) : (Response.plain st).unk = false := rfl
@[simp] theorem Response.plain_reading (st : Status) : (Response.plain st).reading = Reading.empty := rfl

/-- What the fetch answers: nothing when the host has nothing to present, otherwise the first input and the state
without it. -/
theorem State.fetch_cases :
    (s.inputs = [] ∧ s.fetch = none) ∨
      ∃ x rest, s.inputs = x :: rest ∧ s.fetch = some (x, { s with inputs := rest }) := by
  unfold State.fetch
  cases h : s.inputs with
  | nil => exact .inl ⟨rfl, rfl⟩
  | cons x rest => exact .inr ⟨x, rest, rfl, rfl⟩

end Sys2Proof.Machine
end

