-- ==== Sys2Proof/Laws/Ops.lean ====
section
/-! SUPPORT. What each shared operation can do, said once: VALID's bits, the chunk of an index, one step by cases, and
the meanings as equations. -/

namespace Sys2Proof.Machine

/-! ## VALID -/

/-- VALID[d] after VALID[c] <- b. -/
@[simp] theorem validBit_setValidBit (v : BitVec 3) (c d : Fin 3) (b : Bool) :
    validBit (setValidBit v c b) d = if d = c then b else validBit v d := by
  revert v c d b
  decide

@[simp] theorem validBit_validNone (c : Fin 3) : validBit validNone c = false := by
  revert c
  decide

/-- VALID is 0b111 exactly when all three bits are set. -/
theorem valid_full_iff (v : BitVec 3) : v = validFull ↔ ∀ c, validBit v c = true := by
  revert v
  decide

/-- VALID is its three bits. -/
theorem valid_ext (v w : BitVec 3) (h : ∀ c, validBit v c = validBit w c) : v = w := by
  revert v w
  decide

/-! ## Chunks -/

theorem chunkOf_val (c : Fin 3) : chunkOf c.val = some c := by
  have hc : c.val < nChunks := c.isLt
  simp [chunkOf, hc]

theorem chunkOf_none {idx : Nat} (h : 3 ≤ idx) : chunkOf idx = none := by
  have hn : ¬ idx < nChunks := Nat.not_lt.mpr h
  simp [chunkOf, hn]

theorem chunkOf_some {idx : Nat} {c : Fin 3} (h : chunkOf idx = some c) : idx = c.val := by
  unfold chunkOf at h
  split at h
  · cases h
    rfl
  · cases h

/-! ## The decode function's sources -/

@[simp] theorem snapshot_apply (m : Memory) (a : FrameAddr) : Memory.snapshot m a = Memory.read m a := rfl

/-- The text of a pair of appended conditionals is read flag by flag. -/
theorem whenSet_length_le (F : Frame) (p : Position) (t : Text) : (whenSet F p t).length ≤ t.length := by
  unfold whenSet
  split <;> simp

theorem mem_of_mem_whenSet {F : Frame} {p : Position} {t : Text} {c : Char} (h : c ∈ whenSet F p t) : c ∈ t := by
  unfold whenSet at h
  split at h
  · exact h
  · cases h

/-! ## STORE by cases -/

/-- What STORE can do: CHUNK_INDEX, CHUNK_SIZE, or a write to one chunk. -/
theorem execStore_cases (idx len : Nat) (data : Data) (s : State) :
    (3 ≤ idx ∧ execStore idx len data s = .next (s.raise .chunkIndex)) ∨
      (∃ c : Fin 3, idx = c.val ∧ 8 < len ∧ execStore idx len data s = .next (s.raise .chunkSize)) ∨
      ∃ c : Fin 3, idx = c.val ∧ len ≤ 8 ∧ execStore idx len data s = .next (storeChunk c len data s) := by
  by_cases h3 : 3 ≤ idx
  · exact .inl ⟨h3, by simp [execStore, chunkOf_none h3]⟩
  · have hc : chunkOf idx = some ⟨idx, by omega⟩ := chunkOf_val ⟨idx, by omega⟩
    by_cases hl : 8 < len
    · exact .inr (.inl ⟨⟨idx, by omega⟩, rfl, hl, by simp [execStore, hc, hl]⟩)
    · exact .inr (.inr ⟨⟨idx, by omega⟩, rfl, Nat.not_lt.mp hl, by simp [execStore, hc, hl]⟩)

@[simp] theorem storeChunk_frame (c : Fin 3) (len : Nat) (data : Data) (s : State) :
    (storeChunk c len data s).frame = Memory.writeLanes s.frame c len data := rfl
@[simp] theorem storeChunk_valid (c : Fin 3) (len : Nat) (data : Data) (s : State) :
    (storeChunk c len data s).valid = setValidBit s.valid c (decide (len = 8)) := rfl
@[simp] theorem storeChunk_response (c : Fin 3) (len : Nat) (data : Data) (s : State) :
    (storeChunk c len data s).response = some (Response.plain .ok) := rfl
@[simp] theorem storeChunk_inputs (c : Fin 3) (len : Nat) (data : Data) (s : State) :
    (storeChunk c len data s).inputs = s.inputs := rfl

/-! ## One step by cases -/

/-- Everything a step can be: idle, a reset, a reserved CMD value, or the execution of the decoded command. -/
theorem step_cases (s : State) :
    (s.inputs = [] ∧ step s = .next s.idle) ∨
      (∃ p rest, s.inputs = .reset p :: rest ∧ step s = .next ({ s with inputs := rest } : State).assertReset) ∨
      (∃ c rest e, s.inputs = .command c :: rest ∧ decode c = .error e ∧
        step s = .next (({ s with inputs := rest } : State).raise .reservedField)) ∨
      ∃ c rest i, s.inputs = .command c :: rest ∧ decode c = .ok i ∧ step s = exec i { s with inputs := rest } := by
  rcases s.fetch_cases with ⟨hin, hf⟩ | ⟨x, rest, hin, hf⟩
  · exact .inl ⟨hin, by simp [step, hf]⟩
  · cases x with
    | reset p => exact .inr (.inl ⟨p, rest, hin, by simp [step, hf]⟩)
    | command c =>
      cases hd : decode c with
      | error e => exact .inr (.inr (.inl ⟨c, rest, e, hin, hd, by simp [step, hf, hd]⟩))
      | ok i => exact .inr (.inr (.inr ⟨c, rest, i, hin, hd, by simp [step, hf, hd]⟩))

end Sys2Proof.Machine
end

