-- ==== Sys2Proof/Laws/PerInstr.lean ====
section
/-! SUPPORT. Statements about every instruction as syntax, one lemma per constructor. -/

namespace Sys2Proof.Laws.TableRow

/-- The mask and match of an instruction's row of spec/opcode_table.json. -/
def maskMatch : Instr → Byte × Byte
  | .nop => (0xFF#8, 0x00#8)
  | .store _ _ _ => (0xC0#8, 0x40#8)
  | .decode => (0xFF#8, 0x80#8)
  | .clear => (0xFF#8, 0xC0#8)

/-- A well-formed instruction is encoded with the bits its row of the opcode table fixes. -/
def Statement (i : Instr) : Prop :=
  i.wellFormed = true → (encode i).cmd &&& (maskMatch i).1 = (maskMatch i).2

theorem nop : Statement .nop := fun _ => rfl

theorem store (idx len : Nat) (data : Data) : Statement (.store idx len data) := by
  intro _
  have h : ∀ (i : BitVec 2) (l : BitVec 4), (0b01#2 ++ i ++ l) &&& 0xC0#8 = 0x40#8 := by decide
  exact h _ _

theorem decode : Statement .decode := fun _ => rfl

theorem clear : Statement .clear := fun _ => rfl

end Sys2Proof.Laws.TableRow
end

