-- ==== Sys2Proof/Tests/Slice0.lean ====
section
/-! SUPPORT. Tests. Expected values are those of 95_test_vectors.md or words written out from 30_encoding.md R60. -/

namespace Sys2Proof.Tests

open Sys2Proof.Machine

/-! ## The test parameter set TP and small builders -/

/-- TP (95_test_vectors.md section 0): a choice for test vectors, no claim about the meter. -/
def tp : Params :=
  { ohmAtBit3 := true
    mainElU := ⟨14, 7⟩, mainElM := ⟨14, 6⟩, mainElA := ⟨14, 5⟩, mainElV := ⟨14, 4⟩
    mainHz := ⟨14, 3⟩, mainHzK := ⟨14, 2⟩, mainHzM := ⟨14, 1⟩, mainDb := ⟨14, 0⟩
    mainPct := ⟨15, 7⟩, mainT1 := ⟨15, 6⟩, mainT2 := ⟨15, 5⟩, mainT1T2 := ⟨15, 4⟩
    mainOhmM := ⟨15, 2⟩
    mainF := ⟨15, 0⟩, mainFN := ⟨16, 7⟩, mainFU := ⟨16, 6⟩, mainFM := ⟨16, 5⟩
    mainS := ⟨16, 4⟩, mainSN := ⟨16, 3⟩
    secAc := ⟨17, 7⟩, secDc := ⟨17, 6⟩, secHz := ⟨17, 5⟩, secHzK := ⟨17, 4⟩, secHzM := ⟨17, 3⟩, secT2 := ⟨17, 2⟩
    secElU := ⟨18, 7⟩, secElM := ⟨18, 6⟩, secElA := ⟨18, 5⟩, secElPct420 := ⟨18, 4⟩, secElV := ⟨18, 3⟩
    secSign := ⟨17, 0⟩
    secCells := { cells := [9, 10, 11, 12, 13] }
    glyphShapes := standardShapes }

/-- TP with OHM_AT_BIT3 = false. -/
def tpFalse : Params := { tp with ohmAtBit3 := false }

/-- A frame from its bytes that are not zero. -/
def frameOf (cells : Memory) : Frame := Memory.snapshot cells

/-- `n` cells of one value from an offset on. -/
def run (a n : Nat) (v : Byte) : Memory := (List.range n).map (fun k => (a + k, v))

/-- Consecutive cells from an offset on. -/
def at_ (a : Nat) (vs : List Byte) : Memory := vs.zipIdx.map (fun c => (a + c.2, c.1))

/-- A state that holds a frame and a VALID, with one command to come. -/
def stateWith (m : Memory) (v : BitVec 3) (cmd : Byte) (data : Data) : State :=
  { frame := m, valid := v, response := none, inputs := [.command ⟨cmd, data⟩] }

/-- A field of the next state. -/
def nextGet {α : Type} (o : Host.Outcome State Fault Refusal) (f : State → α) : Option α :=
  match o with
  | .next t => some (f t)
  | .fault _ => none
  | .refused _ => none

/-- The four strings of a Reading. -/
def strings (r : Reading) : List Text := [r.mainValue, r.mainUnit, r.secValue, r.secUnit]

/-! ## Well-formedness smoke tests: an ill-formed term for each check -/

theorem test_wellFormed_refuses_idx : (Instr.store 4 8 0#64).wellFormed = false := by decide
theorem test_wellFormed_refuses_len : (Instr.store 0 16 0#64).wellFormed = false := by decide
theorem test_wellFormed_accepts_errors : (Instr.store 3 15 0#64).wellFormed = true := by decide
theorem test_asm_refuses_idx : (AsmCommand.store 4 8 (Vector.replicate 8 0#8)).wellFormed = false := by decide
theorem test_asm_refuses_len : (AsmCommand.store 0 16 (Vector.replicate 8 0#8)).wellFormed = false := by decide
theorem test_asm_refuses_full_idx : (AsmCommand.storeFull 4 (Vector.replicate 8 0#8)).wellFormed = false := by decide

/-! ## Decoding (30_encoding.md R60: CMD is OP in bits 7:6, IDX in 5:4, LEN in 3:0) -/

theorem test_decode_nop : decode ⟨0b00000000#8, 0xFF#64⟩ = .ok .nop := by decide
theorem test_decode_store : decode ⟨0b01100101#8, 0x0000005544332211#64⟩ = .ok (.store 2 5 0x0000005544332211#64) := by
  decide
theorem test_decode_decode : decode ⟨0b10000000#8, 0#64⟩ = .ok .decode := by decide
theorem test_decode_clear : decode ⟨0b11000000#8, 0#64⟩ = .ok .clear := by decide

/-- The reserved values at both ends of their ranges (V-CMD). -/
theorem test_decode_reserved :
    [0x01#8, 0x3F#8, 0x81#8, 0xBF#8, 0xC1#8, 0xFF#8].all
      (fun w => decide (decode ⟨w, 0#64⟩ = .error (.reservedField w))) = true := by
  decide

/-- The table word of a STORE: CMD in bits 7..0, DATA above it. -/
theorem test_decodeTableWord_store :
    decodeTableWord 72 0x7CE4F8DBA000080048 = some (.store 0 8 0x7CE4F8DBA0000800#64) := by
  decide

theorem test_decodeTableWord_rows :
    [decodeTableWord 8 0x00, decodeTableWord 8 0x65, decodeTableWord 8 0x80, decodeTableWord 8 0xC0,
      decodeTableWord 8 0x81] =
      [some .nop, some (.store 2 5 0#64), some .decode, some .clear, none] := by
  decide

/-- The encoding examples of V-CMD. -/
theorem test_encode_store :
    storeOf 2 5 #v[0x11, 0x22, 0x33, 0x44, 0x55, 0, 0, 0] = ⟨0x65#8, 0x0000005544332211#64⟩ ∧
      storeOf 0 8 #v[0x00, 0x08, 0x00, 0xA0, 0xDB, 0xF8, 0xE4, 0x7C] = ⟨0x48#8, 0x7CE4F8DBA0000800#64⟩ := by
  decide

/-! ## The glyph table (V-LUT) -/

/-- The rows of R121 light the segments its second column lists. -/
theorem test_standard_rows_are_lit_segments :
    [litByte [.a, .b, .c, .d, .e, .f], litByte [.b, .c], litByte [.a, .b, .d, .e, .g], litByte [.a, .b, .c, .d, .g],
      litByte [.b, .c, .f, .g], litByte [.a, .c, .d, .f, .g], litByte [.a, .c, .d, .e, .f, .g], litByte [.a, .b, .c],
      litByte [.a, .b, .c, .d, .e, .f, .g], litByte [.a, .b, .c, .d, .f, .g], litByte [.d, .e, .f],
      litByte [.b, .c, .d, .e, .g], litByte [.c], litByte [.c, .d, .e, .g], litByte [.c, .e, .g],
      litByte [.a, .d, .e, .f, .g], litByte [.e, .g], litByte [.a, .d, .e, .f], litByte [.a, .e, .f, .g]].map shapeOf =
      standardRows.map (fun row => row.1) := by
  decide

/-- Every known pattern without a point, from the grid of V-LUT. -/
theorem test_lut_grid :
    ([0xBE, 0xA0, 0xDA, 0xF8, 0xE4, 0x7C, 0x7E, 0xA8, 0xFE, 0xFC, 0x16, 0xF2, 0x20, 0x72, 0x62, 0x5E, 0x42, 0x1E,
        0x4E].map (fun v => lut standardShapes (BitVec.ofNat 8 v))) =
      ("0123456789LdionErCF".toList.map (fun c => ⟨' ', c, true⟩)) := by
  decide

theorem test_lut_points :
    [lut standardShapes 0xF3#8, lut standardShapes 0x21#8, lut standardShapes 0x03#8, lut standardShapes 0x80#8] =
      [⟨'.', 'd', true⟩, ⟨'.', 'i', true⟩, ⟨' ', '?', false⟩, ⟨' ', '?', false⟩] := by
  decide

/-! ## Main mode (V-MM), secondary unit (V-SU) -/

/-- V-MM-1 to V-MM-19. -/
theorem test_main_mode_first :
    ([[], [(1, 0x08)], [(2, 0x80)], [(1, 0x08), (2, 0x80)], [(1, 0x08), (14, 0x50)], [(2, 0x80), (14, 0xA0)],
        [(1, 0x08), (2, 0x80), (14, 0x60)], [(1, 0x08), (14, 0xF0)], [(1, 0x08), (14, 0x08)],
        [(2, 0x81), (15, 0x0A)], [(14, 0x08)], [(14, 0x0C)], [(14, 0x0A)], [(14, 0x0E)], [(14, 0x01)], [(14, 0x05)],
        [(15, 0x80)], [(15, 0x40)], [(15, 0x20)]].map (fun m => mainMode tp (frameOf m))) =
      ["", "DC", "AC", "AC+DC", "mVDC", "uAAC", "mAAC+DC", "umAVDC", "DC", "AC", "HZ", "kHZ", "MHZ", "kMHZ", "dB", "dB",
        "%", "T1", "T2"].map String.toList := by
  decide

/-- V-MM-20 to V-MM-37. -/
theorem test_main_mode_second :
    ([[(15, 0x10)], [(15, 0x50)], [(15, 0x08)], [(15, 0x0A)], [(15, 0x0C)], [(15, 0x02)], [(15, 0x01)],
        [(15, 0x01), (16, 0x80)], [(15, 0x01), (16, 0x40)], [(15, 0x01), (16, 0x20)], [(15, 0x01), (16, 0xE0)],
        [(16, 0x10)], [(16, 0x18)], [(16, 0x08)], [(14, 0x08), (15, 0x08)], [(15, 0x09)],
        [(1, 0x08), (14, 0x0C), (15, 0x08)], [(14, 0xF0)]].map (fun m => mainMode tp (frameOf m))) =
      ["T1-T2", "T1", "OHM", "kOHM", "MOHM", "", "F", "nF", "uF", "mF", "numF", "S", "nS", "", "HZ", "OHM", "DC",
        ""].map String.toList := by
  decide

/-- V-MM-22 to V-MM-25 with OHM_AT_BIT3 = false. -/
theorem test_main_mode_ohm_reversed :
    ([[(15, 0x08)], [(15, 0x0A)], [(15, 0x0C)], [(15, 0x02)]].map (fun m => mainMode tpFalse (frameOf m))) =
      ["", "kOHM", "", "OHM"].map String.toList := by
  decide

/-- V-SU-1 to V-SU-17. -/
theorem test_secondary_unit :
    ([[], [(17, 0x80)], [(17, 0x40)], [(17, 0xC0)], [(17, 0x40), (18, 0x48)], [(17, 0x40), (18, 0x70)],
        [(17, 0x40), (18, 0xF8)], [(17, 0x20)], [(17, 0x30)], [(17, 0x28)], [(17, 0x38)], [(17, 0x04)], [(17, 0x24)],
        [(17, 0x84)], [(18, 0xF8)], [(17, 0x01)],
        [(1, 0x08), (2, 0x80), (14, 0xFF), (15, 0xFF), (16, 0xFF)]].map (fun m => secUnit tp (frameOf m))) =
      ["", "AC", "DC", "AC", "mVDC", "mA%4-20mADC", "umA%4-20mAVDC", "HZ", "kHZ", "MHZ", "kMHZ", "T2", "HZ", "AC", "",
        "", ""].map String.toList := by
  decide

/-! ## Digits (V-DIG, V-SEC) -/

/-- V-DIG-1 to V-DIG-12. -/
theorem test_main_digits :
    ([[0xA0, 0xDB, 0xF8, 0xE4, 0x7C, 0xBE], [0xA0, 0xDB, 0xF9, 0xE5, 0x7D, 0xBF], [0xFE, 0xFE, 0xFE, 0xFE, 0xFE, 0xFE],
        [0xFF, 0xFF, 0xFF, 0xFF, 0xFF, 0xFF], [0, 0, 0, 0, 0, 0], [0xBE, 0xA0, 0x01, 0xDA, 0xF8, 0xE4],
        [0xBE, 0xF3, 0xBE, 0xBE, 0xBE, 0xBE], [0, 0, 0xBF, 0x16, 0, 0], [0x5E, 0x42, 0x42, 0x72, 0x42, 0],
        [0xA1, 0xDA, 0xF8, 0xE4, 0x7C, 0x7F], [0x20, 0x62, 0x72, 0xF2, 0x1E, 0x4E],
        [0xA8, 0x7E, 0xFC, 0x7C, 0x16, 0x17]].map
      (fun vs => (mainDigits tp (frameOf (at_ 3 vs)), anyUnknown standardShapes (mainCellBytes (frameOf (at_ 3 vs)))))) =
      [("1.23450".toList, false), ("1.2.3.4.50".toList, false), ("888888".toList, false), ("8.8.8.8.88".toList, false),
        ("??????".toList, true), ("01?234".toList, true), ("0.d0000".toList, false), ("??.0L??".toList, true),
        ("Error?".toList, true), ("123456".toList, false), ("inodCF".toList, false), ("7695LL".toList, false)] := by
  decide

/-- V-SEC-1 to V-SEC-5. -/
theorem test_secondary_digits :
    ([[0xA1, 0xDA, 0xF8, 0xE4, 0x7D], [0xA0, 0xDB, 0xF8, 0xE4, 0], [0xFF, 0xFF, 0xFF, 0xFF, 0xFF], [0, 0, 0, 0, 0],
        [0xBF, 0xBE, 0xBE, 0xBE, 0xBF]].map
      (fun vs =>
        (secDigits tp (frameOf (at_ 9 vs)), anyUnknown standardShapes (secCellBytes tp (frameOf (at_ 9 vs)))))) =
      [(".1234.5".toList, false), ("1.234?".toList, true), (".8.8.8.8.8".toList, false), ("?????".toList, true),
        (".0000.0".toList, false)] := by
  decide

/-! ## Whole frames (V-DEC, V-TMP, V-SGN) -/

/-- The source's worked example of the post-processing (L1-5). -/
theorem test_temperature_example :
    temperaturePost "T1".toList "1234".toList = ("123".toList, "T1 4".toList) := by
  decide

/-- V-DEC-1 to V-DEC-5. -/
theorem test_decode_frames :
    ([[(1, 0x08), (3, 0xA0), (4, 0xDB), (5, 0xF8), (6, 0xE4), (7, 0x7C), (8, 0xBE)],
        [(1, 0x08), (2, 0x01), (3, 0xA0), (4, 0xDA), (5, 0xF8), (6, 0xE4), (7, 0x7C), (8, 0x7E)],
        [(2, 0x81), (3, 0xBE), (4, 0xBE), (5, 0xBF), (6, 0x16)],
        [(1, 0x08), (2, 0x80)] ++ at_ 3 [0xBE, 0xBF, 0xA0, 0xDA, 0xF8, 0xE4, 0xFC, 0xFD, 0xBE, 0xBE, 0xBE, 0x60] ++
          [(17, 0x20)],
        run 3 6 0xFE ++ run 9 5 0xA0 ++ [(15, 0x0A)]].map
      (fun m => (strings (decodeFn tp (frameOf m)).1, (decodeFn tp (frameOf m)).2))) =
      [(["1.23450", "DC", "?????", ""].map String.toList, true), (["-123456", "DC", "?????", ""].map String.toList, true),
        (["-00.0L??", "AC", "?????", ""].map String.toList, true),
        (["0.01234", "mAAC+DC", "9.9000", "HZ"].map String.toList, false),
        (["888888", "kOHM", "11111", ""].map String.toList, false)] := by
  decide

/-- V-TMP-1 to V-TMP-5. -/
theorem test_decode_temperature :
    ([at_ 3 [0xA0, 0xDA, 0xF8, 0xE4, 0x7C, 0x7E] ++ run 9 5 0xFE ++ [(15, 0x40)],
        at_ 4 [0xDA, 0xDB, 0x7C, 0x7D, 0x7D] ++ run 9 5 0xFE ++ [(15, 0x20)],
        [(2, 0x01), (3, 0xA0), (4, 0xF8), (5, 0xBF), (6, 0xDA), (8, 0x1E)] ++ run 9 5 0xFE ++ [(15, 0x10)],
        at_ 3 [0xA0, 0xDA, 0xF8, 0xE4, 0x7C] ++ run 9 5 0xFE ++ [(15, 0x40)],
        at_ 3 [0xA0, 0xDA, 0xF8, 0xE4, 0x7C, 0x4E, 0xA0, 0xDA, 0xF8, 0xE4, 0x7C] ++ [(15, 0x40), (17, 0x04)]].map
      (fun m => (strings (decodeFn tp (frameOf m)).1, (decodeFn tp (frameOf m)).2))) =
      [(["12345", "T1 6", "88888", ""].map String.toList, false), (["?2.25.5", "T2 5", "88888", ""].map String.toList, true),
        (["-13.02?", "T1-T2 C", "88888", ""].map String.toList, true),
        (["12345", "T1 ?", "88888", ""].map String.toList, true),
        (["12345", "T1 F", "12345", "T2"].map String.toList, false)] := by
  decide

/-- V-SGN-1 to V-SGN-3. -/
theorem test_decode_signs :
    ([[(2, 0x01)] ++ run 3 11 0xFE,
        [(2, 0x01), (3, 0xBE), (4, 0x01), (5, 0xBF), (6, 0x16)] ++ run 9 5 0xA0 ++ [(17, 0x01)],
        run 3 6 0xFE ++ at_ 9 [0xA0, 0xDA, 0xF9, 0xE4, 0x7C] ++ [(17, 0x41), (18, 0x48)]].map
      (fun m => (strings (decodeFn tp (frameOf m)).1, (decodeFn tp (frameOf m)).2))) =
      [(["-888888", "", "88888", ""].map String.toList, false), (["-0?.0L??", "", "-11111", ""].map String.toList, true),
        (["888888", "", "-12.345", "mVDC"].map String.toList, false)] := by
  decide

/-! ## One step of each command (V-ST, V-CMD, P1) -/

/-- V-ST-2: a short STORE writes its bytes and clears VALID[1]. -/
theorem test_step_store_short :
    nextGet (step (stateWith (run 8 8 0xEE) 0b111#3 0x55#8 0x0000005544332211#64))
        (fun t => (t.frame, t.valid, t.response)) =
      some (at_ 8 [0x11, 0x22, 0x33, 0x44, 0x55, 0xEE, 0xEE, 0xEE], 0b101#3, some (Response.plain .ok)) := by
  decide

/-- V-ST-10 with the chunk of P1: bytes of zero are not listed. -/
theorem test_step_store_full :
    nextGet (step (stateWith [(0, 0x77), (2, 0x77)] 0b110#3 0x48#8 0x7CE4F8DBA0000800#64))
        (fun t => (t.frame, t.valid)) =
      some ([(1, 0x08), (3, 0xA0), (4, 0xDB), (5, 0xF8), (6, 0xE4), (7, 0x7C)], 0b111#3) := by
  decide

/-- The statuses of V-CMD, from VALID = 0b000. -/
theorem test_step_statuses :
    ([0x00#8, 0x01#8, 0x3F#8, 0x40#8, 0x48#8, 0x49#8, 0x4F#8, 0x70#8, 0x78#8, 0x79#8, 0x80#8, 0x81#8, 0xBF#8, 0xC0#8,
        0xC1#8, 0xFF#8].map
      (fun w => nextGet (step (stateWith [] 0b000#3 w 0#64)) (fun t => t.response.map (fun r => r.status)))) =
      [some (some .ok), some (some .reservedField), some (some .reservedField), some (some .ok), some (some .ok),
        some (some .chunkSize), some (some .chunkSize), some (some .chunkIndex), some (some .chunkIndex),
        some (some .chunkIndex), some (some .frameIncomplete), some (some .reservedField), some (some .reservedField),
        some (some .ok), some (some .reservedField), some (some .reservedField)] := by
  decide

/-- V-ST-7: NOP changes nothing. -/
theorem test_step_nop :
    nextGet (step (stateWith [(5, 0x12)] 0b011#3 0x00#8 0xFF#64)) (fun t => (t.frame, t.valid, t.inputs)) =
      some ([(5, 0x12)], 0b011#3, []) := by
  decide

/-- V-ST-8: CLEAR clears VALID and keeps the bytes. -/
theorem test_step_clear :
    nextGet (step (stateWith [(5, 0x12)] 0b101#3 0xC0#8 0#64)) (fun t => (t.frame, t.valid)) =
      some ([(5, 0x12)], 0b000#3) := by
  decide

/-- The DECODE of P1 under TP: the Reading, UNK, and the frame discarded. -/
theorem test_decodeWith_fixture :
    (let s : State := { frame := [(1, 0x08), (3, 0xA0), (4, 0xDB), (5, 0xF8), (6, 0xE4), (7, 0x7C), (8, 0xBE)]
                        valid := 0b111#3, response := none, inputs := [] }
     ((decodeWith tp s).response.map (fun r => (r.unk, strings r.reading)), (decodeWith tp s).valid,
       (decodeWith tp s).frame == s.frame)) =
      (some (true, ["1.23450", "DC", "?????", ""].map String.toList), 0b000#3, true) := by
  decide

/-! ## Ports and the assembler's text -/

/-- The port of "mVDC" (30_encoding.md R68). -/
theorem test_port :
    toPort "mVDC".toList =
      ⟨4#5, #v[0x6D, 0x56, 0x44, 0x43, 0, 0, 0, 0, 0, 0, 0, 0, 0, 0, 0, 0]⟩ := by
  decide

/-- A program's text in the syntax of R69. -/
theorem test_assemble_text :
    assembleText "STORE 1, 8, 0xBE, 0, 0, 0, 0, 0, 0, 0 ; chunk 1\n\nDECODE\n.cmd 0x81".toList =
      .ok [.command ⟨0x58#8, 0xBE#64⟩, .command ⟨0x80#8, 0#64⟩, .command ⟨0x81#8, 0#64⟩] := by
  decide

/-- Text that is no command. -/
theorem test_assemble_errors :
    ["STOR 1", "STORE 1, 8, 0", "STORE 4, 8, 0, 0, 0, 0, 0, 0, 0, 0", "NOP 1, x"].map
      (fun t => match parseLine t.toList with | .ok _ => none | .error e => some e) =
      [some .unknownMnemonic, some .wrongOperandCount, some .operandOutOfRange, some .badNumber] := by
  decide

end Sys2Proof.Tests
end

