-- ==== Sys2Proof/Tests/Witnesses.lean ====
section
/-! SUPPORT. One theorem per statement with hypotheses: concrete states and operands that meet them, with a boundary value
for each clause that has a range. -/

namespace Sys2Proof.Tests

open Sys2Proof.Machine

/-! ## Encoding -/

theorem witness_DecodeInvertsEncode :
    (Instr.store 3 15 0xFF#64).wellFormed = true ∧ (Instr.store 0 0 0#64).wellFormed = true ∧
      Instr.nop.wellFormed = true ∧ Instr.decode.wellFormed = true ∧ Instr.clear.wellFormed = true := by
  decide

theorem witness_EncodeInvertsDecode :
    decode ⟨0x7F#8, 5#64⟩ = .ok (.store 3 15 5#64) ∧ decode ⟨0x40#8, 5#64⟩ = .ok (.store 0 0 5#64) := by
  decide

theorem witness_StatusCodes : [5#3, 6#3, 7#3].all (fun c => decide (5 ≤ c.toNat)) = true := by decide

/-- A command on the interface, for any word. -/
theorem stateWith_inputs (m : Memory) (v : BitVec 3) (cmd : Byte) (data : Data) :
    (stateWith m v cmd data).inputs = .command ⟨cmd, data⟩ :: [] := rfl

/-- Each clause of CommandWordOutcomes, NopOnlyAnswers and ClearDiscardsFrame at the ends of its range; the state is
`stateWith m v cmd data` (stateWith_inputs). -/
theorem witness_CommandWordOutcomes :
    (0x00#8).toNat = 0x00 ∧ (0x01 ≤ (0x01#8).toNat ∧ (0x01#8).toNat ≤ 0x3F) ∧
      (0x01 ≤ (0x3F#8).toNat ∧ (0x3F#8).toNat ≤ 0x3F) ∧ (0x81 ≤ (0x81#8).toNat ∧ (0x81#8).toNat ≤ 0xBF) ∧
      (0x81 ≤ (0xBF#8).toNat ∧ (0xBF#8).toNat ≤ 0xBF) ∧ (0xC1 ≤ (0xC1#8).toNat ∧ (0xC1#8).toNat ≤ 0xFF) ∧
      (0xC1 ≤ (0xFF#8).toNat ∧ (0xFF#8).toNat ≤ 0xFF) ∧ (0x40 ≤ (0x40#8).toNat ∧ (0x40#8).toNat ≤ 0x7F) ∧
      (0x40 ≤ (0x7F#8).toNat ∧ (0x7F#8).toNat ≤ 0x7F) ∧ (0x80#8).toNat = 0x80 ∧ (0xC0#8).toNat = 0xC0 := by
  decide

/-! ## One step -/

theorem witness_StepRunsDecodedCommand :
    (stateWith [] 0b011#3 0x58#8 0xBE#64).inputs = .command ⟨0x58#8, 0xBE#64⟩ :: [] ∧
      decode ⟨0x58#8, 0xBE#64⟩ = .ok (.store 1 8 0xBE#64) ∧ (Instr.store 1 8 0xBE#64).wellFormed = true := by
  decide

theorem witness_EveryCommandCompletes :
    (stateWith [] 0b111#3 0x81#8 0#64).inputs = .command ⟨0x81#8, 0#64⟩ :: [] := rfl

/-- The state a STORE with IDX = 3 leads to. -/
def afterIndexError : State :=
  { frame := [], valid := 0b011#3, response := some (Response.plain .chunkIndex), inputs := [] }

theorem witness_ErrorsChangeNothing :
    (stateWith [] 0b011#3 0x78#8 0#64).inputs = .command ⟨0x78#8, 0#64⟩ :: [] ∧
      step (stateWith [] 0b011#3 0x78#8 0#64) = .next afterIndexError ∧
      afterIndexError.response = some (Response.plain .chunkIndex) ∧ (Response.plain .chunkIndex).status ≠ .ok :=
  ⟨rfl, rfl, rfl, by decide⟩

/-- The state a DECODE of 24 dark bytes leads to. -/
def afterDarkDecode : State :=
  { frame := [], valid := 0b000#3, response := some (decodeResponse Config.params (Memory.snapshot [])), inputs := [] }

/-- A dark cell is unknown whatever the parameters (log entry 7). -/
theorem dark_decode_unknown : (decodeResponse Config.params (Memory.snapshot [])).unk = true := by
  have hd : (lut Config.params.glyphShapes 0x00#8).known = false := by
    have hs : Config.params.glyphShapes.lookup (shapeOf 0x00#8) = none := Config.params.glyphShapes.shape_dark
    simp [lut, hs]
  have hc : ∀ a : FrameAddr, Memory.read [] a = 0x00#8 := fun _ => rfl
  simp [decodeResponse, decodeFn, unknownSegment, anyUnknown, mainCellBytes, hc, hd]

/-- For StatusPriority and UnkReportsUnknownCells, with UNK = 1. -/
theorem witness_StatusPriority :
    (stateWith [] 0b111#3 0x80#8 0#64).inputs = .command ⟨0x80#8, 0#64⟩ :: [] ∧
      step (stateWith [] 0b111#3 0x80#8 0#64) = .next afterDarkDecode ∧
      afterDarkDecode.response = some (decodeResponse Config.params (Memory.snapshot [])) ∧
      (decodeResponse Config.params (Memory.snapshot [])).unk = true :=
  ⟨rfl, rfl, rfl, dark_decode_unknown⟩

theorem witness_UnkReportsUnknownCells :
    step (stateWith [] 0b011#3 0x78#8 0#64) = .next afterIndexError ∧
      afterIndexError.response = some (Response.plain .chunkIndex) ∧ (Response.plain .chunkIndex).unk = false :=
  ⟨rfl, rfl, rfl⟩

theorem witness_ResetInputClearsValid :
    ({ stateWith [(3, 0xFE)] 0b111#3 0#8 0#64 with inputs := [.reset (some ⟨0x80#8, 0#64⟩)] } : State).inputs =
      .reset (some ⟨0x80#8, 0#64⟩) :: [] := rfl

theorem witness_IdleStepChangesNothing : State.reset.inputs = [] := rfl

theorem witness_PlacedWordRunsNext :
    decodeTableWord 72 0x7CE4F8DBA000080048 = some (.store 0 8 0x7CE4F8DBA0000800#64) := by decide

/-! ## NOP, STORE, CLEAR -/

theorem witness_NopOnlyAnswers :
    (stateWith [] 0b011#3 0x00#8 7#64).inputs = .command ⟨0x00#8, 7#64⟩ :: [] ∧
      (stateWith [] 0b011#3 0x3F#8 7#64).inputs = .command ⟨0x3F#8, 7#64⟩ :: [] ∧
      0x01 ≤ (0x01#8).toNat ∧ (0x3F#8).toNat ≤ 0x3F := by
  decide

/-- Lengths 0 and 8, a lane below a length, and an offset that a STORE of 3 bytes into chunk 1 does not write. -/
theorem witness_StoreWritesItsChunk :
    0 ≤ 8 ∧ 8 ≤ 8 ∧ (7 : Fin 8).val < 8 ∧ (∀ j : Fin 8, j.val < 3 → (11 : FrameAddr) ≠ chunkAddr 1 j) := by
  decide

theorem witness_StoreFieldErrors : (9 ≤ 9 ∧ 9 ≤ 15) ∧ 9 ≤ 15 ∧ 15 ≤ 15 := by decide

theorem witness_StoreIgnoresLanesPastLen :
    (0x0000AAAA#64) ≠ 0xFFFFAAAA#64 ∧ ∀ j : Fin 8, j.val < 2 → lane 0x0000AAAA#64 j = lane 0xFFFFAAAA#64 j := by
  decide

theorem witness_ClearDiscardsFrame :
    exec .clear (stateWith [(5, 1)] 0b101#3 0#8 0#64) =
        .next ((stateWith [(5, 1)] 0b000#3 0#8 0#64).respond (Response.plain .ok)) ∧
      (stateWith [] 0b101#3 0xC0#8 9#64).inputs = .command ⟨0xC0#8, 9#64⟩ :: [] ∧
      (stateWith [] 0b101#3 0xC1#8 9#64).inputs = .command ⟨0xC1#8, 9#64⟩ :: [] ∧ 0xC1 ≤ (0xC1#8).toNat :=
  ⟨rfl, rfl, rfl, by decide⟩

/-! ## DECODE -/

theorem witness_DecodeAnswersReading : (stateWith [] 0b111#3 0x80#8 0#64).valid = 0b111#3 := rfl

theorem witness_DecodeRefusesIncompleteFrame :
    (stateWith [] 0b110#3 0x80#8 0#64).valid ≠ 0b111#3 ∧ State.reset.valid ≠ 0b111#3 := by decide

theorem witness_DecodeNeedsFreshChunks :
    exec .decode (stateWith [] 0b111#3 0x80#8 0#64) =
        .next ((stateWith [] 0b000#3 0x80#8 0#64).respond (decodeResponse Config.params (Memory.snapshot []))) ∧
      exec .decode (stateWith [] 0b000#3 0x80#8 0#64) =
        .next ((stateWith [] 0b000#3 0x80#8 0#64).respond (Response.plain .frameIncomplete)) ∧
      exec (.store 2 7 0#64) (stateWith [] 0b111#3 0x80#8 0#64) =
        .next ((stateWith [] 0b011#3 0x80#8 0#64).respond (Response.plain .ok)) ∧
      exec .decode (stateWith [] 0b011#3 0x80#8 0#64) =
        .next ((stateWith [] 0b011#3 0x80#8 0#64).respond (Response.plain .frameIncomplete)) :=
  ⟨rfl, rfl, rfl, rfl⟩

/-! ## Glyphs, modes, digits -/

theorem witness_GlyphOfPattern :
    standardShapes.lookup (BitVec.ofNat 7 ((0xF3#8).toNat / 2)) = some .cd ∧
      standardShapes.lookup (BitVec.ofNat 7 ((0x80#8).toNat / 2)) = none := by
  decide

theorem witness_FlagTest : tp.ohmAtBit3 = true ∧ tpFalse.ohmAtBit3 = false := ⟨rfl, rfl⟩

theorem witness_MainElectricalMode : mainKind (frameOf [(1, 0x08), (14, 0x50)]) = some .dc := by decide

theorem witness_ModePathsAreExclusive :
    mainKind (frameOf [(1, 0x08), (14, 0x0C)]) ≠ none ∧ tp.mainElU = tpFalse.mainElU ∧ tp.mainElM = tpFalse.mainElM ∧
      tp.mainElA = tpFalse.mainElA ∧ tp.mainElV = tpFalse.mainElV ∧ mainKind (frameOf [(14, 0x0C)]) = none := by
  decide

theorem witness_KiloOhmUnderEitherOrder :
    (let F := frameOf [(15, 0x0A)]
     (F 15).getLsbD 3 = true ∧ (F 15).getLsbD 1 = true ∧ mainKind F = none ∧ flag F tp.mainHz = false ∧
      flag F tp.mainDb = false ∧ flag F tp.mainPct = false ∧ flag F tp.mainT1 = false ∧ flag F tp.mainT2 = false ∧
      flag F tp.mainT1T2 = false ∧ flag F tp.mainOhmM = false) := by
  decide

theorem witness_ModeStringShapes : mainKind (frameOf [(2, 0x80)]) ≠ none := by decide

theorem witness_DisplaysReadOwnFlags :
    (∀ p ∈ mainFlags tp, flag (frameOf [(0, 0xFF), (17, 0x80)]) p = flag (frameOf []) p) ∧
      ∀ p ∈ secFlags tp, flag (frameOf [(0, 0xFF), (15, 0xFF)]) p = flag (frameOf []) p := by
  decide

theorem witness_TemperatureMovesLastDigit :
    mainMode tp (frameOf [(15, 0x10)]) ∈ ["T1".toList, "T2".toList, "T1-T2".toList] ∧
      mainMode tp (frameOf [(15, 0x0A)]) ∉ ["T1".toList, "T2".toList, "T1-T2".toList] := by
  decide

theorem witness_ReadingFitsPorts : startsWithT (mainMode tp (frameOf [(15, 0x40)])) = true := by decide

/-! ## Responses and ports -/

/-- The Reading of 24 dark bytes has six '?' in its main value, so it is not empty. -/
theorem witness_ResponsesUseOutputCharacters :
    step (stateWith [] 0b011#3 0x78#8 0#64) = .next afterIndexError ∧
      afterIndexError.response = some (Response.plain .chunkIndex) ∧
      step (stateWith [] 0b111#3 0x80#8 0#64) = .next afterDarkDecode ∧
      (decodeResponse Config.params (Memory.snapshot [])).reading ≠ ⟨[], [], [], []⟩ := by
  refine ⟨rfl, rfl, rfl, fun h => ?_⟩
  have hv : (decodeFn Config.params (Memory.snapshot [])).1.mainValue = [] := congrArg Reading.mainValue h
  have hg : ∀ gl : Glyph, glyphText gl ≠ [] := fun gl => by simp [glyphText]
  have hn := List.append_eq_nil_iff.mp hv
  have h2 := hn.2
  unfold temperaturePost at h2
  split at h2
  · have hl := congrArg List.length h2
    simp only [mainDigits, mainCellBytes, assemble, List.length_dropLast, List.length_append, List.length_nil] at hl
    have h3 := List.length_pos_iff.mpr (hg (lut Config.params.glyphShapes (withoutPoint (Memory.snapshot [] 3))))
    have h4 := List.length_pos_iff.mpr (hg (lut Config.params.glyphShapes (Memory.snapshot [] 4)))
    omega
  · exact hg _ (List.append_eq_nil_iff.mp h2).1

/-- A string of 16 output characters, and the empty one. -/
theorem witness_PortCarriesString :
    "umA%4-20mAVDC+Z?".toList.length ≤ 16 ∧ "umA%4-20mAVDC+Z?".toList.all (fun c => outputChars.contains c) = true ∧
      ([] : Text).length ≤ 16 := by
  decide

/-! ## Whole-machine rules -/

theorem witness_OnlyStoreWritesFrame :
    step (stateWith [] 0b000#3 0x68#8 0xFE#64) =
        .next { frame := [(16, 0xFE)], valid := 0b100#3, response := some (Response.plain .ok), inputs := [] } ∧
      Memory.read [(16, 0xFE)] 16 ≠ Memory.read [] 16 :=
  ⟨rfl, by decide⟩

theorem witness_ValidBitAfterCommand :
    (stateWith [] 0b111#3 0x45#8 0#64).inputs = .command ⟨0x45#8, 0#64⟩ :: [] ∧
      step (stateWith [] 0b111#3 0x45#8 0#64) =
        .next { frame := [], valid := 0b110#3, response := some (Response.plain .ok), inputs := [] } ∧
      (0x40 ≤ (0x45#8).toNat ∧ (0x45#8).toNat < 0x80 ∧ (0x45#8).toNat / 16 % 4 = (0 : Fin 3).val ∧
        (0x45#8).toNat % 16 ≤ 8) :=
  ⟨rfl, rfl, by decide⟩

theorem witness_StepKeepsGood :
    (stateWith [(5, 0x12)] 0b011#3 0x00#8 0#64).good ∧
      step (stateWith [(5, 0x12)] 0b011#3 0x00#8 0#64) =
        .next { frame := [(5, 0x12)], valid := 0b011#3, response := some (Response.plain .ok), inputs := [] } :=
  ⟨⟨by decide, fun _ h => by cases h⟩, rfl⟩

/-- Two states that differ in bytes of chunks 1 and 2, which VALID does not name. -/
theorem witness_UnstoredBytesUnobservable :
    (let s := stateWith [(0, 0xFE), (9, 0x11)] 0b001#3 0x58#8 0#64
     let t := stateWith [(0, 0xFE), (20, 0x22)] 0b001#3 0x58#8 0#64
     s.inputs = t.inputs ∧ s.valid = t.valid ∧ s.frame ≠ t.frame ∧
      ∀ (c : Fin 3) (j : Fin 8), validBit s.valid c = true →
        Memory.read s.frame (chunkAddr c j) = Memory.read t.frame (chunkAddr c j)) := by
  decide

/-- The state after reset holds the start of a cycle. -/
theorem witness_RunsFollowReadingCycles : Cycle.start.heldBy State.reset := by
  intro c
  show validBit State.reset.valid c = false
  revert c
  decide

/-- A cycle with chunk 1 full. -/
theorem witness_RunsFollowReadingCycles_full :
    Cycle.heldBy (fun c => if c = 1 then some (fun _ => 0xFE#8) else none)
      { frame := run 8 8 0xFE, valid := 0b010#3, response := none, inputs := [] } := by
  intro c
  fin_cases c
  · rfl
  · exact ⟨rfl, by decide⟩
  · rfl

/-- The chunk order 2, 0, 1, from a state with bytes and VALID bits of an earlier cycle. -/
theorem witness_ReadingCycleFromAnyState :
    (let f : Vector Byte 24 := Vector.replicate 24 0xFE#8
     let s : State := { frame := [(3, 0x01)], valid := 0b010#3, response := none
                        inputs := [.command (storeOf 2 8 (chunkBytesOf f 2)), .command (storeOf 0 8 (chunkBytesOf f 0)),
                          .command (storeOf 1 8 (chunkBytesOf f 1)), .command (encode .decode)] }
     [(2 : Fin 3), 0, 1].Perm [0, 1, 2] ∧
      s.inputs = [(2 : Fin 3), 0, 1].map (fun c => HostInput.command (storeOf c.val 8 (chunkBytesOf f c))) ++
        .command (encode .decode) :: []) := by
  decide

end Sys2Proof.Tests
end

section
/-! PROOFS of the family 10_state.md. Part 1: what a step, a command and a command word can be, each said once. -/

namespace Sys2Proof.Machine

/-! ## The step, by what the host presents -/

theorem step_of_idle {s : State} (hin : s.inputs = []) : step s = .next s.idle := by
  simp [step, State.fetch, hin]

theorem step_of_reset {s : State} {p : Option Command} {rest : List HostInput} (hin : s.inputs = .reset p :: rest) :
    step s = .next ({ s with inputs := rest } : State).assertReset := by
  simp [step, State.fetch, hin]

theorem step_of_reserved {s : State} {c : Command} {e : DecodeError} {rest : List HostInput}
    (hin : s.inputs = .command c :: rest) (hd : decode c = .error e) :
    step s = .next (({ s with inputs := rest } : State).raise .reservedField) := by
  simp [step, State.fetch, hin, hd]

theorem step_of_decoded {s : State} {c : Command} {i : Instr} {rest : List HostInput}
    (hin : s.inputs = .command c :: rest) (hd : decode c = .ok i) : step s = exec i { s with inputs := rest } := by
  simp [step, State.fetch, hin, hd]

theorem decode_tableCommand {nbits w : Nat} {i : Instr} (h : decodeTableWord nbits w = some i) :
    decode (tableCommand nbits w) = .ok i := by
  unfold decodeTableWord at h
  split at h
  next j hj =>
    obtain rfl := Option.some.inj h
    exact hj
  next => cases h

/-! ## The result of a command -/

/-- What executing `i` in `s` leads to: one constructor per outcome of R100 to R102 and R200, with its guard. -/
inductive ExecResult : Instr → State → State → Prop where
  | nop (s : State) : ExecResult .nop s (s.respond (Response.plain .ok))
  | noChunk {idx : Nat} (len : Nat) (data : Data) (s : State) (hidx : 3 ≤ idx) :
      ExecResult (.store idx len data) s (s.raise .chunkIndex)
  | tooLong {idx len : Nat} (c : Fin 3) (data : Data) (s : State) (hidx : idx = c.val) (hlen : 8 < len) :
      ExecResult (.store idx len data) s (s.raise .chunkSize)
  | stored {idx len : Nat} (c : Fin 3) (data : Data) (s : State) (hidx : idx = c.val) (hlen : len ≤ 8) :
      ExecResult (.store idx len data) s (storeChunk c len data s)
  | decoded (s : State) (hfull : s.valid = validFull) :
      ExecResult .decode s
        ((s.setValid validNone).respond (decodeResponse Config.params (Memory.snapshot s.frame)))
  | incomplete (s : State) (hfull : s.valid ≠ validFull) : ExecResult .decode s (s.raise .frameIncomplete)
  | clear (s : State) : ExecResult .clear s ((s.setValid validNone).respond (Response.plain .ok))

/-- Every command completes, with a result `ExecResult` lists (R220). -/
theorem exec_result (i : Instr) (s : State) : ∃ t, exec i s = .next t ∧ ExecResult i s t := by
  cases i with
  | nop => exact ⟨_, rfl, .nop s⟩
  | store idx len data =>
    rcases execStore_cases idx len data s with ⟨hidx, h⟩ | ⟨c, hidx, hlen, h⟩ | ⟨c, hidx, hlen, h⟩
    · exact ⟨_, h, .noChunk len data s hidx⟩
    · exact ⟨_, h, .tooLong c data s hidx hlen⟩
    · exact ⟨_, h, .stored c data s hidx hlen⟩
  | decode =>
    by_cases hfull : s.valid = validFull
    · exact ⟨_, by simp [exec, execDecode, decodeWith, hfull], .decoded s hfull⟩
    · exact ⟨_, by simp [exec, execDecode, decodeWith, hfull], .incomplete s hfull⟩
  | clear => exact ⟨_, rfl, .clear s⟩

/-- A step in which the host presents a command that decodes has one of that command's results. -/
theorem ExecResult.of_step {s t : State} {c : Command} {i : Instr} {rest : List HostInput}
    (hin : s.inputs = .command c :: rest) (hd : decode c = .ok i) (h : step s = .next t) :
    ExecResult i { s with inputs := rest } t := by
  obtain ⟨u, hu, hr⟩ := exec_result i { s with inputs := rest }
  obtain rfl : u = t := by simpa [step_of_decoded hin hd, hu] using h
  exact hr

/-! ## Command words by their number -/

theorem cmdOp_toNat (cmd : Byte) : (cmdOp cmd).toNat = cmd.toNat / 64 := by
  have := cmd.isLt
  simp only [cmdOp, BitVec.extractLsb'_toNat, Nat.shiftRight_eq_div_pow]
  omega

theorem cmdLow_toNat (cmd : Byte) : (cmdLow cmd).toNat = cmd.toNat % 64 := by
  simp [cmdLow]

theorem cmdIdx_eq (cmd : Byte) : cmdIdx cmd = cmd.toNat / 16 % 4 := by
  simp [cmdIdx, Nat.shiftRight_eq_div_pow]

theorem cmdLen_eq (cmd : Byte) : cmdLen cmd = cmd.toNat % 16 := by
  simp [cmdLen]

/-- R63's table: what a command decodes to, by the number CMD. -/
theorem decode_cases (c : Command) :
    (c.cmd.toNat = 0x00 ∧ decode c = .ok .nop) ∨
      (0x40 ≤ c.cmd.toNat ∧ c.cmd.toNat < 0x80 ∧
        decode c = .ok (.store (c.cmd.toNat / 16 % 4) (c.cmd.toNat % 16) c.data)) ∨
      (c.cmd.toNat = 0x80 ∧ decode c = .ok .decode) ∨
      (c.cmd.toNat = 0xC0 ∧ decode c = .ok .clear) ∨
      (c.cmd.toNat % 64 ≠ 0 ∧ ¬ (0x40 ≤ c.cmd.toNat ∧ c.cmd.toNat < 0x80) ∧
        decode c = .error (.reservedField c.cmd)) := by
  have hlt := c.cmd.isLt
  have hop (k : BitVec 2) : cmdOp c.cmd = k ↔ c.cmd.toNat / 64 = k.toNat := by
    rw [← BitVec.toNat_inj, cmdOp_toNat]
  have hlow : cmdLow c.cmd = 0#6 ↔ c.cmd.toNat % 64 = 0 := by
    rw [← BitVec.toNat_inj, cmdLow_toNat]
    rfl
  unfold decode
  simp only [hop, hlow, ne_eq, cmdIdx_eq, cmdLen_eq, BitVec.reduceToNat]
  split_ifs with hstore hlow0 hnop hdecode
  · exact .inr (.inl ⟨by omega, by omega, rfl⟩)
  · exact .inl ⟨by omega, rfl⟩
  · exact .inr (.inr (.inl ⟨by omega, rfl⟩))
  · exact .inr (.inr (.inr (.inl ⟨by omega, rfl⟩)))
  · exact .inr (.inr (.inr (.inr ⟨hlow0, by omega, rfl⟩)))

theorem decode_store_data {c : Command} {idx len : Nat} {data : Data} (h : decode c = .ok (.store idx len data)) :
    data = c.data := by
  rcases decode_cases c with ⟨-, hd⟩ | ⟨-, -, hd⟩ | ⟨-, hd⟩ | ⟨-, hd⟩ | ⟨-, -, hd⟩ <;> rw [hd] at h <;> cases h
  rfl

/-! ## BITS -/

theorem bitString_length (v : Byte) : (bitString v).length = 8 := rfl

theorem bitString_getElem? (v : Byte) (k : Fin 8) :
    (bitString v)[k.val]? = some (if v.getLsbD (7 - k.val) then '1' else '0') := by
  have hbit : ∀ k : Fin 8, [7, 6, 5, 4, 3, 2, 1, 0][k.val]? = some (7 - k.val) := by decide
  rw [bitString, List.getElem?_map, hbit, Option.map_some]

theorem bitString_injective {v w : Byte} (h : bitString v = bitString w) : v = w := by
  refine BitVec.eq_of_getLsbD_eq fun i hi => ?_
  have hv := bitString_getElem? v ⟨7 - i, by omega⟩
  rw [h, bitString_getElem? w, show 7 - (7 - i) = i by omega] at hv
  cases hvi : v.getLsbD i <;> cases hwi : w.getLsbD i <;> simp_all

end Sys2Proof.Machine
end

section
/-! PROOFS of the family 10_state.md. Part 2: a run of the block is a run of the reference. A state holds exactly one cycle
(`Cycle.heldBy_iff`), and a step acts on it as `Cycle.input` does. -/

namespace Sys2Proof.Machine

/-! ## The cycle of a state -/

/-- The cycle a state holds: the bytes of the chunks VALID names. -/
def State.fullChunks (s : State) : Cycle := fun c =>
  if validBit s.valid c then some (fun j => Memory.read s.frame (chunkAddr c j)) else none

theorem Cycle.heldBy_iff (y : Cycle) (s : State) : y.heldBy s ↔ s.fullChunks = y := by
  rw [funext_iff]
  refine forall_congr' fun c => ?_
  cases hy : y c <;> cases hv : validBit s.valid c <;> simp [State.fullChunks, hv, funext_iff]

theorem State.fullChunks_isSome (s : State) (c : Fin 3) : (s.fullChunks c).isSome = validBit s.valid c := by
  cases hv : validBit s.valid c <;> simp [State.fullChunks, hv]

theorem State.valid_eq_of_fullChunks_eq {s t : State} (h : s.fullChunks = t.fullChunks) : s.valid = t.valid :=
  valid_ext _ _ fun c => by rw [← s.fullChunks_isSome, h, t.fullChunks_isSome]

theorem State.fullChunks_of_validNone {s : State} (h : s.valid = validNone) : s.fullChunks = Cycle.start := by
  funext c
  simp [State.fullChunks, h, Cycle.start]

/-- A STORE replaces what its chunk holds (R21). -/
theorem fullChunks_storeChunk (c : Fin 3) (len : Nat) (data : Data) (s : State) :
    (storeChunk c len data s).fullChunks =
      Function.update s.fullChunks c (if len = 8 then some (lane data) else none) := by
  funext d
  by_cases hd : d = c
  · subst hd
    by_cases hlen : len = 8 <;> simp [State.fullChunks, Memory.read_writeLanes, hlen]
  · simp [State.fullChunks, Memory.read_writeLanes, hd]

/-! ## The reference, command by command -/

theorem Cycle.command_store (P : Params) (y : Cycle) (c : Fin 3) (len : Nat) (data : Data) (hlen : len ≤ 8) :
    y.command P (.store c.val len data) =
      (Function.update y c (if len = 8 then some (lane data) else none), Response.plain .ok) := by
  have hc : ¬ 3 ≤ c.val := by omega
  simp only [Cycle.command, hc, Nat.not_lt.mpr hlen, if_false, Prod.mk.injEq, and_true]
  funext d
  simp [Function.update_apply, Fin.ext_iff]

theorem Cycle.command_decode_incomplete (P : Params) (y : Cycle) (c : Fin 3) (h : y c = none) :
    y.command P .decode = (y, Response.plain .frameIncomplete) := by
  simp only [Cycle.command]
  split
  next h0 h1 h2 => fin_cases c <;> simp_all
  next => rfl

theorem joinChunks_chunkAddr (b : Fin 3 → Fin 8 → Byte) (c : Fin 3) (j : Fin 8) :
    joinChunks (b 0) (b 1) (b 2) (chunkAddr c j) = b c j := by
  have hj := j.isLt
  fin_cases c
  · simp [joinChunks, chunkAddr]
  · simp [joinChunks, chunkAddr, show ¬ 16 ≤ 8 + j.val by omega]
  · simp [joinChunks, chunkAddr, show ¬ 16 + j.val < 8 by omega]

/-- With all three chunks full, the reference decodes FRAME itself. -/
theorem Cycle.command_decode_full (P : Params) (s : State) (hfull : s.valid = validFull) :
    s.fullChunks.command P .decode = (Cycle.start, decodeResponse P (Memory.snapshot s.frame)) := by
  have hchunk (c : Fin 3) : s.fullChunks c = some (fun j => Memory.read s.frame (chunkAddr c j)) :=
    if_pos ((valid_full_iff s.valid).mp hfull c)
  have hframe : Memory.snapshot s.frame = joinChunks (fun j => Memory.read s.frame (chunkAddr 0 j))
      (fun j => Memory.read s.frame (chunkAddr 1 j)) (fun j => Memory.read s.frame (chunkAddr 2 j)) := by
    funext a
    obtain ⟨c, j, rfl⟩ := chunkAddr_surj a
    exact (joinChunks_chunkAddr (fun c j => Memory.read s.frame (chunkAddr c j)) c j).symm
  simp only [Cycle.command, hchunk, hframe]

/-! ## Commuting with one command, one step and a run -/

/-- A command does to the cycle a state holds what the reference's command does, with the same response. -/
theorem ExecResult.fullChunks_command {i : Instr} {s t : State} (h : ExecResult i s t) :
    t.inputs = s.inputs ∧ t.fullChunks = (s.fullChunks.command Config.params i).1 ∧
      t.response = some (s.fullChunks.command Config.params i).2 := by
  cases h with
  | nop => exact ⟨rfl, rfl, rfl⟩
  | noChunk len data _ hidx =>
    simp only [Cycle.command, hidx, if_true]
    exact ⟨rfl, rfl, rfl⟩
  | tooLong c data _ hidx hlen =>
    have hc : ¬ 3 ≤ c.val := by omega
    simp only [hidx, Cycle.command, hc, hlen, if_false, if_true]
    exact ⟨rfl, rfl, rfl⟩
  | stored c data _ hidx hlen =>
    rw [hidx, Cycle.command_store _ _ c _ data hlen]
    exact ⟨rfl, fullChunks_storeChunk c _ data s, rfl⟩
  | decoded _ hfull =>
    rw [Cycle.command_decode_full _ s hfull]
    exact ⟨rfl, State.fullChunks_of_validNone rfl, rfl⟩
  | incomplete _ hfull =>
    obtain ⟨c, hc⟩ : ∃ c, validBit s.valid c ≠ true := by simpa [valid_full_iff] using hfull
    rw [Cycle.command_decode_incomplete _ _ c (if_neg hc)]
    exact ⟨rfl, rfl, rfl⟩
  | clear => exact ⟨rfl, State.fullChunks_of_validNone rfl, rfl⟩

/-- A step takes the host's next input and does to the cycle the state holds what the reference does with that input. -/
theorem step_fullChunks {s : State} {x : HostInput} {rest : List HostInput} (hin : s.inputs = x :: rest) :
    ∃ t, step s = .next t ∧ t.inputs = rest ∧ t.fullChunks = (s.fullChunks.input Config.params x).1 ∧
      t.response = (s.fullChunks.input Config.params x).2 := by
  cases x with
  | reset p => exact ⟨_, step_of_reset hin, rfl, State.fullChunks_of_validNone rfl, rfl⟩
  | command c =>
    cases hd : decode c with
    | error e =>
      simp only [Cycle.input, hd]
      exact ⟨_, step_of_reserved hin hd, rfl, rfl, rfl⟩
    | ok i =>
      obtain ⟨t, ht, hr⟩ := exec_result i { s with inputs := rest }
      simp only [Cycle.input, hd]
      exact ⟨t, (step_of_decoded hin hd).trans ht, hr.fullChunks_command⟩

theorem trace_succ {s t : State} (n : Nat) (h : step s = .next t) :
    trace (n + 1) s = t.response.toList ++ trace n t := by
  simp [trace, h]

theorem stateAfter_succ {s t : State} (n : Nat) (h : step s = .next t) : stateAfter (n + 1) s = stateAfter n t := by
  simp [stateAfter, h]

/-- The cycle a sequence of inputs leads to. -/
def Cycle.after (P : Params) (y : Cycle) (xs : List HostInput) : Cycle := xs.foldl (fun z x => (z.input P x).1) y

theorem trace_eq_responses (n : Nat) (s : State) :
    trace n s = s.fullChunks.responses Config.params (s.inputs.take n) := by
  induction n generalizing s with
  | zero => simp [trace, Cycle.responses]
  | succ n ih =>
    cases hin : s.inputs with
    | nil => simp [trace_succ n (step_of_idle hin), ih, hin, Cycle.responses]
    | cons x rest =>
      obtain ⟨t, ht, hrest, hchunks, hresp⟩ := step_fullChunks hin
      simp [trace_succ n ht, ih, hrest, hchunks, hresp, Cycle.responses]

theorem stateAfter_fullChunks (n : Nat) (s : State) :
    (stateAfter n s).fullChunks = s.fullChunks.after Config.params (s.inputs.take n) := by
  induction n generalizing s with
  | zero => simp [stateAfter, Cycle.after]
  | succ n ih =>
    cases hin : s.inputs with
    | nil =>
      rw [stateAfter_succ n (step_of_idle hin), ih, State.idle_inputs, hin, List.take_nil, List.take_nil]
      rfl
    | cons x rest =>
      obtain ⟨t, ht, hrest, hchunks, -⟩ := step_fullChunks hin
      rw [stateAfter_succ n ht, ih, hrest, hchunks]
      rfl

/-- A run shows no more of a state than its inputs and the cycle it holds. -/
theorem observe_congr (n : Nat) {s t : State} (hin : s.inputs = t.inputs) (h : s.fullChunks = t.fullChunks) :
    observe n s = observe n t := by
  have hvalid : (stateAfter n s).valid = (stateAfter n t).valid :=
    State.valid_eq_of_fullChunks_eq (by rw [stateAfter_fullChunks, stateAfter_fullChunks, hin, h])
  simp only [observe, trace_eq_responses, hin, h, hvalid]

/-- Settles O49: the cycle a state holds is its `fullChunks`, and `trace_eq_responses`. -/
theorem runsFollowReadingCycles : Obligations.RunsFollowReadingCycles := by
  intro n s y hy
  rw [trace_eq_responses, (y.heldBy_iff s).mp hy]

/-- Settles O48: the two states hold the same cycle. -/
theorem unstoredBytesUnobservable : Obligations.UnstoredBytesUnobservable := by
  intro n s t hin hvalid hbytes
  refine observe_congr n hin (funext fun c => ?_)
  cases hv : validBit s.valid c with
  | false => simp [State.fullChunks, ← hvalid, hv]
  | true => simp [State.fullChunks, ← hvalid, hv, hbytes c _ hv]

end Sys2Proof.Machine
end

section
/-! PROOFS of the family 10_state.md. Part 3: one command's effect on FRAME and VALID, the step and the reset state. -/

namespace Sys2Proof.Machine

/-! ## FRAME -/

/-- Only a STORE without error changes FRAME, and only the bytes it covers (R20). -/
theorem ExecResult.read_frame {i : Instr} {s t : State} (h : ExecResult i s t) {a : FrameAddr}
    (ha : Memory.read t.frame a ≠ Memory.read s.frame a) :
    ∃ idx len data, i = .store idx len data ∧ idx < 3 ∧ len ≤ 8 ∧ 8 * idx ≤ a.val ∧ a.val < 8 * idx + len := by
  cases h with
  | stored c data _ hidx hlen =>
    obtain ⟨d, j, rfl⟩ := chunkAddr_surj a
    rw [storeChunk_frame, Memory.read_writeLanes] at ha
    obtain ⟨hd, hj⟩ := (ite_ne_right_iff.mp ha).1
    subst hd
    refine ⟨_, _, data, rfl, ?_, hlen, ?_, ?_⟩ <;> simp only [hidx, chunkAddr] <;> omega
  | nop | noChunk | tooLong | decoded | incomplete | clear => exact absurd rfl ha

/-- Settles O44. -/
theorem onlyStoreWritesFrame : Obligations.OnlyStoreWritesFrame := by
  intro s t a hstep ha
  rcases step_cases s with ⟨-, h⟩ | ⟨p, rest, hin, -⟩ | ⟨c, rest, e, -, -, h⟩ | ⟨c, rest, i, hin, hd, -⟩
  · obtain rfl : s.idle = t := by simpa [h] using hstep
    exact absurd rfl ha
  · exact .inl ⟨p, rest, hin⟩
  · obtain rfl : ({ s with inputs := rest } : State).raise .reservedField = t := by simpa [h] using hstep
    exact absurd rfl ha
  · obtain ⟨idx, len, data, rfl, hidx, hlen, hlow, hhigh⟩ := (ExecResult.of_step hin hd hstep).read_frame ha
    obtain rfl := decode_store_data hd
    exact .inr ⟨c, rest, idx, len, hin, hd, hidx, hlen, hlow, hhigh⟩

/-! ## VALID -/

/-- What a command makes of VALID[d] (R21). -/
def validBitAfter (v : BitVec 3) (d : Fin 3) : Instr → Bool
  | .nop => validBit v d
  | .store idx len _ => if idx = d.val ∧ len ≤ 8 then decide (len = 8) else validBit v d
  | .decode => if v = validFull then false else validBit v d
  | .clear => false

theorem ExecResult.validBit_eq {i : Instr} {s t : State} (h : ExecResult i s t) (d : Fin 3) :
    validBit t.valid d = validBitAfter s.valid d i := by
  cases h with
  | nop => rfl
  | noChunk len data _ hidx =>
    refine (if_neg ?_).symm
    omega
  | tooLong c data _ hidx hlen =>
    refine (if_neg ?_).symm
    omega
  | stored c data _ hidx hlen => simp [validBitAfter, hidx, hlen, Fin.ext_iff, eq_comm]
  | decoded _ hfull => simp [validBitAfter, hfull]
  | incomplete _ hfull => simp [validBitAfter, hfull]
  | clear => simp [validBitAfter]

/-- Settles O45: R63's table (`decode_cases`) names the command, and `ExecResult.validBit_eq` its effect. -/
theorem validBitAfterCommand : Obligations.ValidBitAfterCommand := by
  intro s t c rest d hin hstep
  have hbit {i : Instr} (hd : decode c = .ok i) : validBit t.valid d = validBitAfter s.valid d i :=
    (ExecResult.of_step hin hd hstep).validBit_eq d
  rcases decode_cases c with ⟨hn, hd⟩ | ⟨hlow, hhigh, hd⟩ | ⟨hn, hd⟩ | ⟨hn, hd⟩ | ⟨hres, hrange, hd⟩
  · simp [hbit hd, validBitAfter, hn]
  · have hother : ¬ (c.cmd.toNat = 0xC0 ∨ c.cmd.toNat = 0x80 ∧ s.valid = 0b111#3) := by omega
    simp [hbit hd, validBitAfter, hlow, hhigh, hother]
  · by_cases hfull : s.valid = 0b111#3 <;> simp [hbit hd, validBitAfter, hn, validFull, hfull]
  · simp [hbit hd, validBitAfter, hn]
  · obtain rfl : ({ s with inputs := rest } : State).raise .reservedField = t := by
      simpa [step_of_reserved hin hd] using hstep
    rw [if_neg (by omega), if_neg (by omega)]
    rfl

/-! ## The step, BITS and the reset state -/

/-- Settles O8. -/
theorem stepRunsDecodedCommand : Obligations.StepRunsDecodedCommand :=
  fun _ _ _ _ hin hd _ => step_of_decoded hin hd

/-- Settles O14: the placed command is at the head of the inputs, and taking it gives the state back. -/
theorem placedWordRunsNext : Obligations.PlacedWordRunsNext :=
  fun s nbits w _ h => step_of_decoded (s.presentNext_inputs (tableCommand nbits w)) (decode_tableCommand h)

/-- Settles O43. -/
theorem bitsViewOfFrame : Obligations.BitsViewOfFrame :=
  ⟨fun _ _ => ⟨bitString_length _, bitString_getElem? _⟩, fun _ _ => bitString_injective⟩

/-- Settles O46: FRAME lists nothing and no response is shown. -/
theorem resetStateGood : Obligations.ResetStateGood :=
  ⟨⟨reset_frame_wf, fun _ h => nomatch h⟩, rfl⟩

end Sys2Proof.Machine
end

section
/-! PROOFS of the family 30_encoding.md. Part 1: command words, data words, status codes and pseudo-commands. -/

namespace Sys2Proof.Machine

/-! ## Command words -/

/-- The number of a STORE's command word: OP is 1, and IDX and LEN stand in their fields (R60, R69). -/
theorem encode_store_toNat {idx len : Nat} (data : Data) (hidx : idx < 4) (hlen : len < 16) :
    (encode (.store idx len data)).cmd.toNat = 0x40 + 16 * idx + len := by
  have hword : ∀ (i : BitVec 2) (l : BitVec 4), (0b01#2 ++ i ++ l).toNat = 0x40 + 16 * i.toNat + l.toNat := by decide
  have h := hword (BitVec.ofNat 2 idx) (BitVec.ofNat 4 len)
  rwa [BitVec.toNat_ofNat, BitVec.toNat_ofNat, Nat.mod_eq_of_lt hidx, Nat.mod_eq_of_lt hlen] at h

theorem Instr.wellFormed_store_iff (idx len : Nat) (data : Data) :
    (Instr.store idx len data).wellFormed = true ↔ idx < 4 ∧ len < 16 := by
  simp [Instr.wellFormed]

/-- A CMD of 0x40..0x7F is a STORE with the index and the length of its fields (R63). -/
theorem decode_of_store_range {c : Command} (hlow : 0x40 ≤ c.cmd.toNat) (hhigh : c.cmd.toNat < 0x80) :
    decode c = .ok (.store (c.cmd.toNat / 16 % 4) (c.cmd.toNat % 16) c.data) := by
  rcases decode_cases c with ⟨hn, -⟩ | ⟨-, -, hd⟩ | ⟨hn, -⟩ | ⟨hn, -⟩ | ⟨-, hrange, -⟩
  · omega
  · exact hd
  · omega
  · omega
  · exact absurd ⟨hlow, hhigh⟩ hrange

/-- A CMD whose low six bits are not zero names a command under OP 0b01 alone (R63). -/
theorem decode_of_reserved {c : Command} (hlow : c.cmd.toNat % 64 ≠ 0)
    (hrange : ¬ (0x40 ≤ c.cmd.toNat ∧ c.cmd.toNat < 0x80)) : decode c = .error (.reservedField c.cmd) := by
  rcases decode_cases c with ⟨hn, -⟩ | ⟨hl, hh, -⟩ | ⟨hn, -⟩ | ⟨hn, -⟩ | ⟨-, -, hd⟩
  · omega
  · exact absurd ⟨hl, hh⟩ hrange
  · omega
  · omega
  · exact hd

theorem decode_of_zero {c : Command} (h : c.cmd = 0x00#8) : decode c = .ok .nop := by
  simp [decode, h, cmdOp, cmdLow]

theorem decode_of_0x80 {c : Command} (h : c.cmd = 0x80#8) : decode c = .ok .decode := by
  simp [decode, h, cmdOp, cmdLow]

theorem decode_of_0xC0 {c : Command} (h : c.cmd = 0xC0#8) : decode c = .ok .clear := by
  simp [decode, h, cmdOp, cmdLow]

/-- Settles O1: the three fixed words, and for STORE the fields of `encode_store_toNat` read back. -/
theorem decodeInvertsEncode : Obligations.DecodeInvertsEncode := by
  intro i hwf
  cases i with
  | nop => exact decode_of_zero rfl
  | store idx len data =>
    obtain ⟨hidx, hlen⟩ := (Instr.wellFormed_store_iff idx len data).mp hwf
    have hn := encode_store_toNat data hidx hlen
    rw [decode_of_store_range (by omega) (by omega), hn, show (0x40 + 16 * idx + len) / 16 % 4 = idx by omega,
      show (0x40 + 16 * idx + len) % 16 = len by omega]
    rfl
  | decode => exact decode_of_0x80 rfl
  | clear => exact decode_of_0xC0 rfl

/-- A CMD of 0x40..0x7F is put together again from its index and length. -/
theorem encode_store_fields {c : Command} (hlow : 0x40 ≤ c.cmd.toNat) (hhigh : c.cmd.toNat < 0x80) :
    encode (.store (c.cmd.toNat / 16 % 4) (c.cmd.toNat % 16) c.data) = c := by
  have hcmd : (encode (.store (c.cmd.toNat / 16 % 4) (c.cmd.toNat % 16) c.data)).cmd = c.cmd := by
    apply BitVec.eq_of_toNat_eq
    rw [encode_store_toNat _ (by omega) (by omega)]
    omega
  exact congrArg (Command.mk · c.data) hcmd

/-- Settles O2: by the rows of R63's table (`decode_cases`). -/
theorem encodeInvertsDecode : Obligations.EncodeInvertsDecode := by
  intro c i h
  rcases decode_cases c with ⟨hn, hd⟩ | ⟨hlow, hhigh, hd⟩ | ⟨hn, hd⟩ | ⟨hn, hd⟩ | ⟨-, -, hd⟩ <;>
    rw [hd] at h <;> cases h
  · exact ⟨rfl, BitVec.eq_of_toNat_eq hn.symm, nofun⟩
  · have henc := encode_store_fields hlow hhigh
    exact ⟨(Instr.wellFormed_store_iff _ _ _).mpr ⟨by omega, by omega⟩, congrArg Command.cmd henc,
      fun _ _ _ heq => heq ▸ henc⟩
  · exact ⟨rfl, BitVec.eq_of_toNat_eq hn.symm, nofun⟩
  · exact ⟨rfl, BitVec.eq_of_toNat_eq hn.symm, nofun⟩

/-- Settles O3: the five rows of R63's table, by the number CMD. -/
theorem commandWordOutcomes : Obligations.CommandWordOutcomes := by
  intro s c rest hin
  have hword {k : Byte} (hn : c.cmd.toNat = k.toNat) : c.cmd = k := BitVec.eq_of_toNat_eq hn
  refine ⟨fun hn => ?nop, fun hn => ?reserved, fun ⟨hlow, hhigh⟩ => ?store, fun hn => ?decode, fun hn => ?clear⟩
  case nop => exact step_of_decoded hin (decode_of_zero (hword hn))
  case reserved => exact step_of_reserved hin (decode_of_reserved (by omega) (by omega))
  case store => exact step_of_decoded hin (decode_of_store_range hlow (by omega))
  case decode => exact step_of_decoded hin (decode_of_0x80 (hword hn))
  case clear => exact step_of_decoded hin (decode_of_0xC0 (hword hn))

/-- Settles O4: the decoder is evaluated on the six words. -/
theorem wordsDecodeAsWritten : Obligations.WordsDecodeAsWritten := by
  unfold Obligations.WordsDecodeAsWritten
  decide

/-! ## Status codes -/

theorem Status.ofCode_code (st : Status) : Status.ofCode st.code = some st := by
  cases st <;> rfl

theorem Status.code_toNat_lt (st : Status) : st.code.toNat < 5 := by
  cases st <;> decide

/-- Settles O5: by the five statuses, and the eight codes. -/
theorem statusCodes : Obligations.StatusCodes :=
  ⟨rfl, Status.ofCode_code, Status.code_toNat_lt, by decide⟩

/-! ## Lanes of a data word -/

theorem lane_or (x y : Data) (j : Fin 8) : lane (x ||| y) j = lane x j ||| lane y j :=
  BitVec.extractLsb'_or

/-- A byte put on lane `i` is that lane, and leaves every other lane dark. -/
theorem lane_onLane (b : Byte) (i : Nat) (j : Fin 8) : lane (onLane b i) j = if i = j.val then b else 0#8 := by
  have hj := j.isLt
  ext k hk
  simp only [lane, onLane, BitVec.getElem_extractLsb', BitVec.getLsbD_shiftLeft, BitVec.getLsbD_setWidth]
  split_ifs with hij
  · subst hij
    simp [show 8 * j.val + k < 64 by omega, show k < 64 by omega, BitVec.getLsbD_eq_getElem hk]
  · rcases Nat.lt_or_gt_of_ne hij with h | h
    · simp [BitVec.getLsbD_of_ge b (8 * j.val + k - 8 * i) (by omega)]
    · simp [show 8 * j.val + k < 8 * i by omega]

theorem lane_toNat (x : Data) (j : Fin 8) : (lane x j).toNat = x.toNat / 2 ^ (8 * j.val) % 256 := by
  rw [lane, BitVec.extractLsb'_toNat, Nat.shiftRight_eq_div_pow]

theorem lane_dataOfBytes (b : Vector Byte 8) (j : Fin 8) : lane (dataOfBytes b) j = b[j] := by
  simp only [dataOfBytes, lane_or, lane_onLane]
  fin_cases j <;> simp

/-- Settles O6. -/
theorem dataLanes : Obligations.DataLanes :=
  fun b j => ⟨lane_dataOfBytes b j, lane_toNat _ j⟩

/-! ## Pseudo-commands -/

theorem toList_eq_chunkBytesOf (f : Vector Byte 24) :
    f.toList = (chunkBytesOf f 0).toList ++ (chunkBytesOf f 1).toList ++ (chunkBytesOf f 2).toList := by
  have h : f.toList = List.ofFn (fun a : FrameAddr => f[a]) := by
    rw [← Vector.toList_ofFn]
    exact congrArg Vector.toList Vector.ofFn_getElem.symm
  rw [h]
  rfl

/-- Settles O7: each line's commands are those of its expansion by definition, and the three chunks make the frame. -/
theorem pseudoCommandsExpand : Obligations.PseudoCommandsExpand := by
  refine ⟨fun a => ?_, fun _ _ => rfl, fun _ => rfl,
    fun f => ⟨chunkBytesOf f 0, chunkBytesOf f 1, chunkBytesOf f 2, rfl, toList_eq_chunkBytesOf f⟩⟩
  cases a <;> rfl

end Sys2Proof.Machine
end

section
/-! PROOFS of the family 30_encoding.md. Part 2: what of a STORE's fields matters, and when UNK is set. -/

namespace Sys2Proof.Machine

/-! ## The fields of STORE -/

/-- Settles O17: an index without a chunk, and a length above 8. -/
theorem storeFieldErrors : Obligations.StoreFieldErrors := by
  intro s len data
  refine ⟨rfl, fun c hlow _ => ?_⟩
  have hlen : 8 < len := hlow
  have hsize : execStore c.val len data s = .next (s.raise .chunkSize) := by simp [execStore, chunkOf_val, hlen]
  exact hsize

/-- A write reads only the lanes below its length (R62). -/
theorem Memory.writeLanes_congr (m : Memory) (c : Fin 3) {len : Nat} {x y : Data}
    (h : ∀ j : Fin 8, j.val < len → lane x j = lane y j) :
    Memory.writeLanes m c len x = Memory.writeLanes m c len y := by
  have hlane : (fun (m' : Memory) (j : Fin 8) => if j.val < len then m'.write (chunkAddr c j) (lane x j) else m') =
      fun m' j => if j.val < len then m'.write (chunkAddr c j) (lane y j) else m' := by
    funext m' j
    by_cases hj : j.val < len
    · rw [h j hj]
    · rw [if_neg hj, if_neg hj]
  rw [Memory.writeLanes, hlane, Memory.writeLanes]

/-- Settles O18: DATA enters a STORE through `Memory.writeLanes` alone. -/
theorem storeIgnoresLanesPastLen : Obligations.StoreIgnoresLanesPastLen := by
  intro s idx len x y h
  have hchunk (c : Fin 3) : storeChunk c len x s = storeChunk c len y s := by
    rw [storeChunk, Memory.writeLanes_congr s.frame c h, storeChunk]
  show execStore idx len x s = execStore idx len y s
  simp only [execStore, hchunk]

/-! ## The response of a command -/

/-- A successful DECODE answers the Reading of the frame and clears VALID; every other command answers a status alone. -/
theorem ExecResult.response_cases {i : Instr} {s t : State} (h : ExecResult i s t) :
    (i = .decode ∧ s.valid = validFull ∧ t.valid = validNone ∧
        t.response = some (decodeResponse Config.params (Memory.snapshot s.frame))) ∨
      (¬ (i = .decode ∧ s.valid = validFull) ∧ ∃ st, t.response = some (Response.plain st)) := by
  cases h with
  | decoded _ hfull => exact .inl ⟨rfl, hfull, rfl, rfl⟩
  | incomplete _ hfull => exact .inr ⟨fun ⟨_, h⟩ => hfull h, _, rfl⟩
  | nop | noChunk | tooLong | stored | clear => exact .inr ⟨nofun, _, rfl⟩

theorem decode_eq_decode_iff (c : Command) : decode c = .ok .decode ↔ c.cmd = 0x80#8 := by
  refine ⟨fun h => ?_, decode_of_0x80⟩
  obtain ⟨-, hcmd, -⟩ := encodeInvertsDecode c .decode h
  exact hcmd.symm

/-- The same for a step in which the host presents a command, reserved values of CMD included. -/
theorem step_response_cases {s t : State} {c : Command} {rest : List HostInput}
    (hin : s.inputs = .command c :: rest) (h : step s = .next t) :
    (c.cmd = 0x80#8 ∧ s.valid = validFull ∧ t.valid = validNone ∧
        t.response = some (decodeResponse Config.params (Memory.snapshot s.frame))) ∨
      (¬ (c.cmd = 0x80#8 ∧ s.valid = validFull) ∧ ∃ st, t.response = some (Response.plain st)) := by
  rw [← decode_eq_decode_iff]
  cases hd : decode c with
  | error e =>
    obtain rfl : ({ s with inputs := rest } : State).raise .reservedField = t := by
      simpa [step_of_reserved hin hd] using h
    exact .inr ⟨nofun, _, rfl⟩
  | ok i => simpa using (ExecResult.of_step hin hd h).response_cases

/-! ## UNK -/

theorem unknownSegment_iff (P : Params) (F : Frame) :
    unknownSegment P F = true ↔
      (∃ v ∈ mainCellBytes F, (lut P.glyphShapes v).known = false) ∨
        ∃ n ∈ P.secCells.cells, (lut P.glyphShapes (F n)).known = false := by
  simp [unknownSegment, anyUnknown, secCellBytes]

/-- Settles O23: a status alone carries UNK 0, and the response of a successful DECODE carries `unknownSegment`. -/
theorem unkReportsUnknownCells : Obligations.UnkReportsUnknownCells := by
  intro s t c rest r hin hstep hr
  rcases step_response_cases hin hstep with ⟨hcmd, hfull, -, hresp⟩ | ⟨hnot, st, hresp⟩ <;>
    obtain rfl := Option.some.inj (hr.symm.trans hresp)
  · have hunk := unknownSegment_iff Config.params (Memory.snapshot s.frame)
    exact hunk.trans ⟨fun h => ⟨hcmd, hfull, h⟩, fun ⟨_, _, h⟩ => h⟩
  · exact ⟨nofun, fun ⟨hcmd, hfull, _⟩ => absurd ⟨hcmd, hfull⟩ hnot⟩

end Sys2Proof.Machine
end

section
/-! PROOFS of the family 30_encoding.md. Part 3: the strings of a Reading and their characters. A unit string
is a sublist of one of the few texts that have every flag set, which bounds its length and its characters at once. -/

namespace Sys2Proof.Machine

/-! ## Mode and unit strings -/

theorem whenSet_sublist (F : Frame) (p : Position) (t : Text) : (whenSet F p t).Sublist t := by
  unfold whenSet
  split
  · exact .refl t
  · exact t.nil_sublist

/-- The main modes with every decoration and multiplier (R141 to R154). -/
def fullMainModes : List Text :=
  ["umAVAC+DC".toList, "umAVDC".toList, "umAVAC".toList, "kMHZ".toList, "dB".toList, "%".toList, "T1".toList,
    "T2".toList, "T1-T2".toList, "kMOHM".toList, "numF".toList, "nS".toList, []]

theorem mainDecoration_sublist (P : Params) (F : Frame) : (mainDecoration P F).Sublist ['u', 'm', 'A', 'V'] :=
  (((whenSet_sublist ..).append (whenSet_sublist ..)).append (whenSet_sublist ..)).append (whenSet_sublist ..)

theorem mainNonElectrical_sublist (P : Params) (F : Frame) :
    ∃ t ∈ fullMainModes, (mainNonElectrical P F).Sublist t := by
  unfold mainNonElectrical
  repeat' split
  · exact ⟨"kMHZ".toList, by decide, ((whenSet_sublist ..).append (whenSet_sublist ..)).append (.refl _)⟩
  · exact ⟨"dB".toList, by decide, .refl _⟩
  · exact ⟨"%".toList, by decide, .refl _⟩
  · exact ⟨"T1".toList, by decide, .refl _⟩
  · exact ⟨"T2".toList, by decide, .refl _⟩
  · exact ⟨"T1-T2".toList, by decide, .refl _⟩
  · exact ⟨"kMOHM".toList, by decide, ((whenSet_sublist ..).append (whenSet_sublist ..)).append (.refl _)⟩
  · exact ⟨"numF".toList, by decide,
      (((whenSet_sublist ..).append (whenSet_sublist ..)).append (whenSet_sublist ..)).append (.refl _)⟩
  · exact ⟨"nS".toList, by decide, (whenSet_sublist ..).append (.refl _)⟩
  · exact ⟨[], by decide, .refl _⟩

theorem mainMode_sublist (P : Params) (F : Frame) : ∃ t ∈ fullMainModes, (mainMode P F).Sublist t := by
  unfold mainMode
  split
  next kind _ =>
    have hkind : "umAV".toList ++ kind.text ∈ fullMainModes := by cases kind <;> decide
    exact ⟨_, hkind, (mainDecoration_sublist P F).append (.refl _)⟩
  next => exact mainNonElectrical_sublist P F

/-- The secondary units with every decoration and multiplier (R160 to R164). -/
def fullSecUnits : List Text :=
  ["umA%4-20mAVAC".toList, "umA%4-20mAVDC".toList, "kMHZ".toList, "T2".toList, []]

theorem secDecoration_sublist (P : Params) (F : Frame) : (secDecoration P F).Sublist "umA%4-20mAV".toList :=
  ((((whenSet_sublist ..).append (whenSet_sublist ..)).append (whenSet_sublist ..)).append
    (whenSet_sublist ..)).append (whenSet_sublist ..)

theorem secUnit_sublist (P : Params) (F : Frame) : ∃ t ∈ fullSecUnits, (secUnit P F).Sublist t := by
  unfold secUnit
  split
  next kind _ =>
    have hkind : "umA%4-20mAV".toList ++ kind.text ∈ fullSecUnits := by cases kind <;> decide
    exact ⟨_, hkind, (secDecoration_sublist P F).append (.refl _)⟩
  next =>
    split_ifs
    · exact ⟨"kMHZ".toList, by decide, ((whenSet_sublist ..).append (whenSet_sublist ..)).append (.refl _)⟩
    · exact ⟨"T2".toList, by decide, .refl _⟩
    · exact ⟨[], by decide, .refl _⟩

theorem mainMode_length_le (P : Params) (F : Frame) : (mainMode P F).length ≤ 9 := by
  obtain ⟨t, ht, hsub⟩ := mainMode_sublist P F
  have hbound : ∀ t ∈ fullMainModes, t.length ≤ 9 := by decide
  exact hsub.length_le.trans (hbound t ht)

theorem mainMode_chars (P : Params) (F : Frame) : mainMode P F ⊆ outputChars := by
  obtain ⟨t, ht, hsub⟩ := mainMode_sublist P F
  have hchars : ∀ t ∈ fullMainModes, t ⊆ outputChars := by decide
  exact List.Subset.trans hsub.subset (hchars t ht)

theorem mem_of_startsWithT {t : Text} (h : startsWithT t = true) : 'T' ∈ t := by
  cases t with
  | nil => cases h
  | cons c rest => simp [of_decide_eq_true h]

/-- The longest temperature mode is "T1-T2". -/
theorem mainMode_length_le_of_temperature {P : Params} {F : Frame} (h : startsWithT (mainMode P F) = true) :
    (mainMode P F).length ≤ 5 := by
  obtain ⟨t, ht, hsub⟩ := mainMode_sublist P F
  have hbound : ∀ t ∈ fullMainModes, 'T' ∈ t → t.length ≤ 5 := by decide
  exact hsub.length_le.trans (hbound t ht (hsub.subset (mem_of_startsWithT h)))

theorem secUnit_length_le (P : Params) (F : Frame) : (secUnit P F).length ≤ 13 := by
  obtain ⟨t, ht, hsub⟩ := secUnit_sublist P F
  have hbound : ∀ t ∈ fullSecUnits, t.length ≤ 13 := by decide
  exact hsub.length_le.trans (hbound t ht)

theorem secUnit_chars (P : Params) (F : Frame) : secUnit P F ⊆ outputChars := by
  obtain ⟨t, ht, hsub⟩ := secUnit_sublist P F
  have hchars : ∀ t ∈ fullSecUnits, t ⊆ outputChars := by decide
  exact List.Subset.trans hsub.subset (hchars t ht)

/-! ## Digit strings -/

theorem glyphChar_mem_outputChars (ch : GlyphChar) : glyphChar ch ∈ outputChars := by
  cases ch <;> decide

theorem lut_ch_mem_outputChars (g : GlyphShapes) (v : Byte) : (lut g v).ch ∈ outputChars := by
  unfold lut
  split
  · exact glyphChar_mem_outputChars _
  · decide

/-- A cell whose point bit is 0 has no point (R120). -/
theorem lut_pt_of_pointBit {g : GlyphShapes} {v : Byte} (h : pointBit v = false) : (lut g v).pt = ' ' := by
  unfold lut
  split
  · simp [h]
  · rfl

theorem pointBit_withoutPoint (v : Byte) : pointBit (withoutPoint v) = false := by
  simp [pointBit, withoutPoint]

theorem glyphText_length_le (gl : Glyph) : (glyphText gl).length ≤ 2 := by
  unfold glyphText
  split <;> simp

theorem glyphText_withoutPoint (g : GlyphShapes) (v : Byte) :
    glyphText (lut g (withoutPoint v)) = [(lut g (withoutPoint v)).ch] := by
  simp [glyphText, lut_pt_of_pointBit (pointBit_withoutPoint v)]

theorem glyphText_chars (g : GlyphShapes) (v : Byte) : glyphText (lut g v) ⊆ outputChars := by
  intro c hc
  simp only [glyphText, List.mem_append, List.mem_ite_nil_right, List.mem_singleton] at hc
  rcases hc with ⟨-, rfl⟩ | rfl
  · decide
  · exact lut_ch_mem_outputChars g v

theorem assemble_length_le (g : GlyphShapes) (cells : List Byte) : (assemble g cells).length ≤ 2 * cells.length := by
  induction cells with
  | nil => rfl
  | cons v rest ih =>
    have hv := glyphText_length_le (lut g v)
    rw [assemble, List.length_append, List.length_cons]
    omega

theorem assemble_chars (g : GlyphShapes) (cells : List Byte) : assemble g cells ⊆ outputChars := by
  induction cells with
  | nil => exact List.nil_subset _
  | cons v rest ih => exact List.append_subset.mpr ⟨glyphText_chars g v, ih⟩

/-- The first and the last cell give one character, the four between at most two (R182). -/
theorem mainDigits_length_le (P : Params) (F : Frame) : (mainDigits P F).length ≤ 10 := by
  have h4 := glyphText_length_le (lut P.glyphShapes (F 4))
  have h5 := glyphText_length_le (lut P.glyphShapes (F 5))
  have h6 := glyphText_length_le (lut P.glyphShapes (F 6))
  have h7 := glyphText_length_le (lut P.glyphShapes (F 7))
  simp only [mainDigits, mainCellBytes, assemble, glyphText_withoutPoint, List.length_append, List.length_cons,
    List.length_nil]
  omega

theorem secDigits_length_le (P : Params) (F : Frame) : (secDigits P F).length ≤ 2 * P.secCells.cells.length := by
  have h := assemble_length_le P.glyphShapes (secCellBytes P F)
  rwa [secCellBytes, List.length_map] at h

/-! ## Temperature post-processing -/

theorem temperaturePost_of_temperature {mode : Text} (digits : Text) (h : startsWithT mode = true) :
    temperaturePost mode digits = (digits.dropLast, mode ++ [' '] ++ digits.getLast?.toList) := if_pos h

theorem temperaturePost_of_other {mode : Text} (digits : Text) (h : startsWithT mode ≠ true) :
    temperaturePost mode digits = (digits, mode) := if_neg h

theorem temperaturePost_value_subset (mode digits : Text) : (temperaturePost mode digits).1 ⊆ digits := by
  by_cases h : startsWithT mode = true
  · rw [temperaturePost_of_temperature digits h]
    exact digits.dropLast_subset
  · rw [temperaturePost_of_other digits h]
    exact List.Subset.refl digits

theorem temperaturePost_unit_subset (mode digits : Text) :
    (temperaturePost mode digits).2 ⊆ mode ++ [' '] ++ digits := by
  by_cases h : startsWithT mode = true
  · rw [temperaturePost_of_temperature digits h]
    refine List.append_subset.mpr ⟨List.subset_append_left _ _, fun c hc => ?_⟩
    exact List.mem_append_right _ (List.mem_of_getLast? (Option.mem_toList.mp hc))
  · rw [temperaturePost_of_other digits h, List.append_assoc]
    exact List.subset_append_left _ _

/-- The unit gains two characters in a temperature mode, and such a mode has at most five. -/
theorem mainUnit_length_le (P : Params) (F : Frame) : (decodeFn P F).1.mainUnit.length ≤ 9 := by
  show (temperaturePost (mainMode P F) (mainDigits P F)).2.length ≤ 9
  by_cases h : startsWithT (mainMode P F) = true
  · have hmode := mainMode_length_le_of_temperature h
    have hlast : (mainDigits P F).getLast?.toList.length ≤ 1 := Option.length_toList_le
    rw [temperaturePost_of_temperature _ h]
    simp only [List.length_append, List.length_cons, List.length_nil]
    omega
  · rw [temperaturePost_of_other _ h]
    exact mainMode_length_le P F

theorem mainValue_length (P : Params) (F : Frame) :
    (decodeFn P F).1.mainValue.length =
      (mainSign F).length +
        if startsWithT (mainMode P F) then (mainDigits P F).length - 1 else (mainDigits P F).length := by
  simp only [decodeFn, temperaturePost]
  split <;> simp

/-- Settles O40: at most one sign, and the bounds of the digit strings, the mode and the units. -/
theorem readingFitsPorts : Obligations.ReadingFitsPorts := by
  intro P F
  have hsign : (mainSign F).length ≤ 1 := whenSet_length_le F mainSignAt ['-']
  have hsecSign : (secSignText P F).length ≤ 1 := whenSet_length_le F P.secSign ['-']
  have hdigits := mainDigits_length_le P F
  have hvalue := mainValue_length P F
  have hsecDigits := secDigits_length_le P F
  have hcells := P.secCells.length_le
  have hsec : (decodeFn P F).1.secValue.length = (secSignText P F).length + (secDigits P F).length :=
    List.length_append
  refine ⟨?_, mainUnit_length_le P F, by omega, by omega, secUnit_length_le P F, fun htemp => ?_⟩
  · split at hvalue <;> omega
  · rw [if_pos htemp] at hvalue
    omega

/-! ## The characters of a response -/

/-- The four strings of a Reading (R67). -/
def Reading.texts (r : Reading) : List Text := [r.mainValue, r.mainUnit, r.secValue, r.secUnit]

theorem Reading.texts_subset_iff (r : Reading) (cs : List Char) :
    (∀ x ∈ r.texts, x ⊆ cs) ↔ r.mainValue ⊆ cs ∧ r.mainUnit ⊆ cs ∧ r.secValue ⊆ cs ∧ r.secUnit ⊆ cs := by
  simp [Reading.texts]

theorem sign_chars (F : Frame) (p : Position) : whenSet F p ['-'] ⊆ outputChars :=
  List.Subset.trans (whenSet_sublist F p ['-']).subset (by decide)

theorem decodeFn_chars (P : Params) (F : Frame) : ∀ x ∈ (decodeFn P F).1.texts, x ⊆ outputChars := by
  have hdigits : mainDigits P F ⊆ outputChars := assemble_chars _ _
  have hspace : [' '] ⊆ outputChars := by decide
  rw [Reading.texts_subset_iff]
  refine ⟨?mainValue, ?mainUnit, ?secValue, secUnit_chars P F⟩
  case mainValue =>
    exact List.append_subset.mpr ⟨sign_chars F mainSignAt, List.Subset.trans (temperaturePost_value_subset _ _) hdigits⟩
  case mainUnit =>
    exact List.Subset.trans (temperaturePost_unit_subset _ _)
      (List.append_subset.mpr ⟨List.append_subset.mpr ⟨mainMode_chars P F, hspace⟩, hdigits⟩)
  case secValue => exact List.append_subset.mpr ⟨sign_chars F P.secSign, assemble_chars _ _⟩

theorem Reading.empty_chars (cs : List Char) : ∀ x ∈ Reading.empty.texts, x ⊆ cs := by
  simp [Reading.texts, Reading.empty]

/-- A step that shows a response took a command. -/
theorem command_of_step_response {s t : State} {r : Response} (h : step s = .next t) (hr : t.response = some r) :
    ∃ c rest, s.inputs = .command c :: rest := by
  rcases step_cases s with ⟨-, hs⟩ | ⟨p, rest, -, hs⟩ | ⟨c, rest, e, hin, -, -⟩ | ⟨c, rest, i, hin, -, -⟩
  · obtain rfl : s.idle = t := by simpa [hs] using h
    cases hr
  · obtain rfl : ({ s with inputs := rest } : State).assertReset = t := by simpa [hs] using h
    cases hr
  · exact ⟨c, rest, hin⟩
  · exact ⟨c, rest, hin⟩

/-- Settles O41: a response is the Reading of a successful DECODE or has four empty strings (`step_response_cases`). -/
theorem responsesUseOutputCharacters : Obligations.ResponsesUseOutputCharacters := by
  intro s t r hstep hr
  obtain ⟨c, rest, hin⟩ := command_of_step_response hstep hr
  rcases step_response_cases hin hstep with ⟨-, hfull, hnone, hresp⟩ | ⟨-, st, hresp⟩ <;>
    obtain rfl := Option.some.inj (hr.symm.trans hresp)
  · exact ⟨decodeFn_chars Config.params (Memory.snapshot s.frame), fun _ => ⟨rfl, hfull, hnone⟩⟩
  · exact ⟨Reading.empty_chars outputChars, fun h => absurd rfl h⟩

end Sys2Proof.Machine
end

section
/-! PROOFS of the family 30_encoding.md. Part 4: the string ports. -/

namespace Sys2Proof.Machine

theorem toPort_length {t : Text} (h : t.length ≤ 16) : (toPort t).length.toNat = t.length := by
  simp only [toPort, BitVec.toNat_ofNat]
  omega

theorem toPort_bytes_toList (t : Text) : (toPort t).bytes.toList = (List.range 16).map (portByte t) := rfl

theorem toPort_getElem (t : Text) (k : Fin 16) : (toPort t).bytes[k] = portByte t k.val := by
  fin_cases k <;> rfl

theorem portByte_of_lt {t : Text} {k : Nat} (h : k < t.length) : portByte t k = asciiCode t[k] := by
  simp [portByte, h]

theorem portByte_of_le {t : Text} {k : Nat} (h : t.length ≤ k) : portByte t k = 0x00#8 := by
  simp [portByte, h]

/-- The first bytes of a string's port are the codes of its characters (R68). -/
theorem toPort_take_length {t : Text} (h : t.length ≤ 16) :
    (toPort t).bytes.toList.take t.length = t.map asciiCode := by
  rw [toPort_bytes_toList, ← List.map_take, List.take_range, Nat.min_eq_left h]
  refine List.ext_getElem (by simp) fun k hk _ => ?_
  have hlt : k < t.length := by simpa using hk
  simp [portByte_of_lt hlt]

/-- An output character is read back from its code, which is below 0x80 (R67). -/
theorem ofNat_asciiCode {c : Char} (h : c ∈ outputChars) : Char.ofNat (asciiCode c).toNat = c := by
  have hascii : ∀ c ∈ outputChars, c.toNat < 0x80 := by simp [outputChars]
  have hc := hascii c h
  rw [asciiCode, BitVec.toNat_ofNat, Nat.mod_eq_of_lt (by omega), Char.ofNat_toNat]

theorem ofPort_toPort {t : Text} (h : t.length ≤ 16) (hchars : ∀ c ∈ t, c ∈ outputChars) : ofPort (toPort t) = t := by
  rw [ofPort, toPort_length h, toPort_take_length h, List.map_map]
  exact (List.map_congr_left fun c hc => ofNat_asciiCode (hchars c hc)).trans t.map_id

/-- Settles O42. -/
theorem portCarriesString : Obligations.PortCarriesString := by
  intro x hx
  refine ⟨toPort_length hx, fun k => ?_, ofPort_toPort hx⟩
  rw [toPort_getElem]
  split
  next hlt => exact portByte_of_lt hlt
  next hge => exact portByte_of_le (Nat.le_of_not_lt hge)

end Sys2Proof.Machine
end

section
/-! PROOFS of the family 40_frame_assembler.md: NOP, STORE and CLEAR. -/

namespace Sys2Proof.Machine

/-! ## STORE -/

/-- A STORE into a chunk that exists, of a length that fits it, is the write to that chunk (R101). -/
theorem exec_store_of_le (s : State) (c : Fin 3) {len : Nat} (data : Data) (hlen : len ≤ 8) :
    exec (.store c.val len data) s = .next (storeChunk c len data s) := by
  have hfits : ¬ 8 < len := Nat.not_lt.mpr hlen
  have hstore : execStore c.val len data s = .next (storeChunk c len data s) := by
    simp [execStore, chunkOf_val, hfits]
  exact hstore

theorem Memory.read_writeLanes_of_lt (m : Memory) (c : Fin 3) {len : Nat} (data : Data) {j : Fin 8}
    (hj : j.val < len) : Memory.read (Memory.writeLanes m c len data) (chunkAddr c j) = lane data j := by
  rw [Memory.read_writeLanes, if_pos ⟨rfl, hj⟩]

/-- A STORE leaves every offset outside the lanes it covers (R101). -/
theorem Memory.read_writeLanes_of_ne (m : Memory) (c : Fin 3) {len : Nat} (data : Data) {a : FrameAddr}
    (ha : ∀ j : Fin 8, j.val < len → a ≠ chunkAddr c j) :
    Memory.read (Memory.writeLanes m c len data) a = Memory.read m a := by
  obtain ⟨d, i, rfl⟩ := chunkAddr_surj a
  have hnot : ¬ (d = c ∧ i.val < len) := by
    rintro ⟨rfl, hi⟩
    exact ha i hi rfl
  rw [Memory.read_writeLanes, if_neg hnot]

/-- Settles O16: the result is `storeChunk`, whose FRAME is read lane by lane and whose VALID bit by bit. -/
theorem storeWritesItsChunk : Obligations.StoreWritesItsChunk := by
  intro s c len data hlen
  refine ⟨storeChunk c len data s, exec_store_of_le s c data hlen, rfl, rfl, fun _ => rfl, ?written, ?kept, ?valid⟩
  case written => exact fun _ hj => Memory.read_writeLanes_of_lt s.frame c data hj
  case kept => exact fun _ ha => Memory.read_writeLanes_of_ne s.frame c data ha
  case valid => exact fun d => validBit_setValidBit s.valid c d (decide (len = 8))

/-! ## NOP and CLEAR -/

/-- Settles O15: CMD 0x00 is NOP whatever DATA is, and 0x01..0x3F are reserved (`commandWordOutcomes`). -/
theorem nopOnlyAnswers : Obligations.NopOnlyAnswers := by
  refine ⟨fun _ => rfl, fun s cmd data rest hin => ?_⟩
  obtain ⟨hnop, hreserved, -⟩ := commandWordOutcomes s ⟨cmd, data⟩ rest hin
  exact ⟨fun hcmd => hnop (congrArg BitVec.toNat hcmd), fun hrange => hreserved (.inl hrange)⟩

/-- DECODE refuses every VALID but 0b111 (R200). -/
theorem exec_decode_of_not_full {s : State} (h : s.valid ≠ validFull) :
    exec .decode s = .next (s.raise .frameIncomplete) :=
  congrArg Host.Outcome.next (if_neg h)

theorem valid_of_exec_clear {s t : State} (h : exec .clear s = .next t) : t.valid = validNone := by
  cases h
  rfl

/-- Settles O19: CLEAR leaves VALID 0b000, which DECODE refuses; R63's table (`commandWordOutcomes`) gives the words. -/
theorem clearDiscardsFrame : Obligations.ClearDiscardsFrame := by
  refine ⟨fun _ => rfl, fun s t hclear => ?decode, fun s cmd data rest hin => ?words⟩
  case decode =>
    have hnot : t.valid ≠ validFull := by simp [valid_of_exec_clear hclear, validNone, validFull]
    exact exec_decode_of_not_full hnot
  case words =>
    have hmax : cmd.toNat ≤ 0xFF := Nat.le_of_lt_succ cmd.isLt
    obtain ⟨-, hreserved, -, -, hclear⟩ := commandWordOutcomes s ⟨cmd, data⟩ rest hin
    exact ⟨fun hcmd => hclear (congrArg BitVec.toNat hcmd), fun hlow => hreserved (.inr (.inr ⟨hlow, hmax⟩))⟩

end Sys2Proof.Machine
end

section
/-! PROOFS of the family 41_glyph_lut.md: what the LUT gives, by the shape and the point bit of a pattern. -/

namespace Sys2Proof.Machine

/-! ## Shape and point bit of a pattern -/

theorem shapeOf_eq_ofNat (v : Byte) : shapeOf v = BitVec.ofNat 7 (v.toNat / 2) :=
  BitVec.eq_of_toNat_eq (by simp [shapeOf, Nat.shiftRight_eq_div_pow])

theorem pointBit_iff (v : Byte) : pointBit v = true ↔ v.toNat % 2 = 1 := by
  simp [pointBit, BitVec.getLsbD, Nat.testBit_zero]

theorem shapeOf_withoutPoint (v : Byte) : shapeOf (withoutPoint v) = shapeOf v := by
  have hmask : shapeOf 0xFE#8 = BitVec.allOnes 7 := by decide
  calc shapeOf (withoutPoint v) = shapeOf v &&& shapeOf 0xFE#8 := BitVec.extractLsb'_and
    _ = shapeOf v := by rw [hmask, BitVec.and_allOnes]

theorem shapeOf_or_one (v : Byte) : shapeOf (v ||| 1#8) = shapeOf v := by
  have hone : shapeOf 1#8 = 0#7 := by decide
  calc shapeOf (v ||| 1#8) = shapeOf v ||| shapeOf 1#8 := BitVec.extractLsb'_or
    _ = shapeOf v := by rw [hone, BitVec.or_zero]

theorem pointBit_or_one (v : Byte) : pointBit (v ||| 1#8) = true := by
  simp [pointBit]

/-! ## The look-up, by whether the shape has an entry (R120) -/

theorem lut_of_some {g : GlyphShapes} {v : Byte} {c : GlyphChar} (h : g.lookup (shapeOf v) = some c) :
    lut g v = { pt := if pointBit v then '.' else ' ', ch := glyphChar c, known := true } := by
  simp only [lut, h]

theorem lut_of_none {g : GlyphShapes} {v : Byte} (h : g.lookup (shapeOf v) = none) :
    lut g v = { pt := ' ', ch := '?', known := false } := by
  simp only [lut, h]

/-- The two patterns of a known shape: the same character, without and with the point (R126). -/
theorem lut_pair_of_some {g : GlyphShapes} {v : Byte} {c : GlyphChar} (h : g.lookup (shapeOf v) = some c)
    (hpoint : pointBit v = false) :
    lut g v = { pt := ' ', ch := glyphChar c, known := true } ∧
      lut g (v ||| 1#8) = { pt := '.', ch := glyphChar c, known := true } := by
  have hor : g.lookup (shapeOf (v ||| 1#8)) = some c := (congrArg g.lookup (shapeOf_or_one v)).trans h
  constructor
  · simp [lut_of_some h, hpoint]
  · simp [lut_of_some hor, pointBit_or_one]

theorem lut_known (g : GlyphShapes) (v : Byte) : (lut g v).known = (g.lookup (shapeOf v)).isSome := by
  cases h : g.lookup (shapeOf v) with
  | none => simp [lut_of_none h]
  | some c => simp [lut_of_some h]

/-- The shape alone chooses the character (R120). -/
theorem lut_ch (g : GlyphShapes) (v : Byte) :
    (lut g v).ch = (g.lookup (shapeOf v)).elim '?' glyphChar := by
  cases h : g.lookup (shapeOf v) with
  | none => simp [lut_of_none h]
  | some c => simp [lut_of_some h]

theorem lut_ch_withoutPoint (g : GlyphShapes) (v : Byte) : (lut g (withoutPoint v)).ch = (lut g v).ch := by
  rw [lut_ch, lut_ch, shapeOf_withoutPoint]

theorem glyphChar_ne_question (c : GlyphChar) : glyphChar c ≠ '?' := by
  cases c <;> decide

theorem lut_ch_eq_question_iff (g : GlyphShapes) (v : Byte) : (lut g v).ch = '?' ↔ (lut g v).known = false := by
  rw [lut_ch, lut_known]
  cases g.lookup (shapeOf v) with
  | none => simp
  | some c => simp [glyphChar_ne_question c]

/-- Settles O24: the pattern's number gives its shape and its point bit, on which `lut` splits. -/
theorem glyphOfPattern : Obligations.GlyphOfPattern := by
  intro g v
  rw [← shapeOf_eq_ofNat]
  refine ⟨fun c hc => ?known, lut_of_none, lut_ch_eq_question_iff g v, lut_ch_withoutPoint g v⟩
  case known => simp only [lut_of_some hc, pointBit_iff]

/-! ## The default table and the rows of every table -/

/-- Settles O25: each row is one entry of the table, and the entries decide which of the 256 patterns are known. -/
theorem standardGlyphTable : Obligations.StandardGlyphTable := by
  refine ⟨fun row hrow => ?rows, ?count⟩
  case rows =>
    obtain ⟨hentry, hpoint⟩ : (standardShapes.lookup (shapeOf row.1)).map glyphChar = some row.2 ∧
        pointBit row.1 = false := by
      revert row
      decide
    obtain ⟨c, hc, hchar⟩ := Option.map_eq_some_iff.mp hentry
    exact hchar ▸ lut_pair_of_some hc hpoint
  case count =>
    simp only [lut_known]
    decide

/-- Settles O26: 0xF2 and 0xF3 have the shape 0x79, 0x00 and 0x01 the dark one, whose rows every table has. -/
theorem everyTableHasDAndNoBlank : Obligations.EveryTableHasDAndNoBlank := by
  intro g
  obtain ⟨hplain, hpointed⟩ := lut_pair_of_some (v := 0xF2#8) g.shape_d rfl
  exact ⟨hplain, hpointed, lut_of_none g.shape_dark, lut_of_none g.shape_dark⟩

end Sys2Proof.Machine
end

section
/-! PROOFS of the family 42_mode_unit.md. Part 1: the flag test, and what the mode/unit extractor gives, by the kind found
and by the first flag set. -/

namespace Sys2Proof.Machine

/-! ## Flags (R140) -/

theorem flag_iff_shift (F : Frame) (p : Position) : flag F p = true ↔ (F p.byte >>> p.bit.val) &&& 1#8 = 1#8 := by
  have hbit : (F p.byte >>> p.bit.val) &&& 1#8 = BitVec.setWidth 8 (BitVec.ofBool (flag F p)) := by
    rw [BitVec.and_one_eq_setWidth_ofBool_getLsbD, BitVec.getLsbD_ushiftRight]
    rfl
  rw [hbit]
  cases flag F p <;> decide

theorem letterIf_eq_whenSet (F : Frame) (p : Position) (t : Text) : letterIf F p t = whenSet F p t :=
  if_congr (flag_iff_shift F p).symm rfl rfl

theorem mainOhm_of_true {P : Params} (h : P.ohmAtBit3 = true) : mainOhm P = ⟨15, 3⟩ ∧ mainOhmK P = ⟨15, 1⟩ :=
  ⟨if_pos h, if_pos h⟩

theorem mainOhm_of_false {P : Params} (h : P.ohmAtBit3 = false) : mainOhm P = ⟨15, 1⟩ ∧ mainOhmK P = ⟨15, 3⟩ := by
  simp [mainOhm, mainOhmK, h]

/-- Settles O27: masking the shifted byte with 1 leaves the flag's bit alone. -/
theorem flagTest : Obligations.FlagTest :=
  ⟨flag_iff_shift, fun _ => mainOhm_of_true, fun _ => mainOhm_of_false⟩

/-- Both bits of the ohm pair set: whichever is which, ohm and its k are set (R151). -/
theorem ohmFlags_of_bits (P : Params) {F : Frame} (h3 : (F 15).getLsbD 3 = true) (h1 : (F 15).getLsbD 1 = true) :
    flag F (mainOhm P) = true ∧ flag F (mainOhmK P) = true := by
  cases hat : P.ohmAtBit3 with
  | true =>
    obtain ⟨hohm, hk⟩ := mainOhm_of_true hat
    exact hohm ▸ hk ▸ ⟨h3, h1⟩
  | false =>
    obtain ⟨hohm, hk⟩ := mainOhm_of_false hat
    exact hohm ▸ hk ▸ ⟨h1, h3⟩

/-! ## The main mode, by its electrical kind (R141 to R143) -/

theorem mainMode_of_kind {P : Params} {F : Frame} {k : MainKind} (h : mainKind F = some k) :
    mainMode P F = mainDecoration P F ++ k.text := by
  simp only [mainMode, h]

theorem mainMode_of_none {P : Params} {F : Frame} (h : mainKind F = none) : mainMode P F = mainNonElectrical P F := by
  simp only [mainMode, h]

/-- Settles O28: R141's truth table of the two kind flags. -/
theorem mainElectricalKind : Obligations.MainElectricalKind := by
  intro F
  have hac : flag F mainAc = (F 2).getLsbD 7 := rfl
  have hdc : flag F mainDc = (F 1).getLsbD 3 := rfl
  unfold mainKind
  rw [hac, hdc]
  cases (F 2).getLsbD 7 <;> cases (F 1).getLsbD 3 <;> rfl

/-- Settles O29: the decorations are `mainDecoration`, letter by letter. -/
theorem mainElectricalMode : Obligations.MainElectricalMode := by
  intro P F k hk
  simp only [letterIf_eq_whenSet]
  exact mainMode_of_kind hk

/-- Settles O30: with a kind the mode is made of the four decorations and the kind, without one the list has no
decoration in it. -/
theorem modePathsAreExclusive : Obligations.ModePathsAreExclusive := by
  refine ⟨fun P Q F hkind hu hm ha hv => ?electrical, fun P Q F hnone => ⟨mainMode_of_none hnone, ?other⟩⟩
  case electrical =>
    obtain ⟨k, hk⟩ := Option.ne_none_iff_exists'.mp hkind
    rw [mainMode_of_kind hk, mainMode_of_kind hk]
    simp only [mainDecoration, hu, hm, ha, hv]
  case other =>
    rw [mainMode_of_none hnone, mainMode_of_none hnone]
    rfl

/-! ## The priority list (R144) -/

/-- What the first row of a priority table whose flag is set yields, and "" where none is. -/
def firstSet (F : Frame) : List (Position × Text) → Text
  | [] => []
  | row :: rest => if flag F row.1 then row.2 else firstSet F rest

theorem mainNonElectrical_eq_firstSet (P : Params) (F : Frame) :
    mainNonElectrical P F = firstSet F (modeRows P F) := by
  simp only [modeRows, letterIf_eq_whenSet]
  rfl

theorem firstSet_eq_find (F : Frame) (rows : List (Position × Text)) :
    firstSet F rows = ((rows.find? fun row => flag F row.1).map Prod.snd).getD [] := by
  induction rows with
  | nil => rfl
  | cons row rest ih => cases hset : flag F row.1 <;> simp [firstSet, hset, ih]

theorem firstSet_cases (F : Frame) (rows : List (Position × Text)) :
    firstSet F rows = [] ∨ ∃ row ∈ rows, firstSet F rows = row.2 := by
  rw [firstSet_eq_find]
  cases hfind : rows.find? fun row => flag F row.1 with
  | none => exact .inl rfl
  | some row => exact .inr ⟨row, List.mem_of_find?_eq_some hfind, rfl⟩

/-- Settles O31: the if-chain of `mainNonElectrical` is a search through the table. -/
theorem nonElectricalPriority : Obligations.NonElectricalPriority := by
  intro P F
  rw [mainNonElectrical_eq_firstSet, firstSet_eq_find]
  cases (modeRows P F).find? fun row => flag F row.1 <;> rfl

/-- Settles O32: the rows above ohm are unset, and under either order ohm and its k are set. -/
theorem kiloOhmUnderEitherOrder : Obligations.KiloOhmUnderEitherOrder := by
  intro P F h3 h1 hnone hHz hDb hPct hT1 hT2 hT1T2 hM
  obtain ⟨hohm, hk⟩ := ohmFlags_of_bits P h3 h1
  have hres : mainResistance P F = "kOHM".toList := by
    simp only [mainResistance, whenSet, hk, hM]
    rfl
  rw [mainMode_of_none hnone, ← hres]
  simp [mainNonElectrical, hHz, hDb, hPct, hT1, hT2, hT1T2, hohm]

/-! ## The secondary unit, by its electrical kind (R160 to R166) -/

theorem secUnit_of_kind {P : Params} {F : Frame} {k : SecKind} (h : secKind P F = some k) :
    secUnit P F = secDecoration P F ++ k.text := by
  simp only [secUnit, h]

theorem secUnit_of_none {P : Params} {F : Frame} (h : secKind P F = none) :
    secUnit P F = if flag F P.secHz then secFrequency P F else if flag F P.secT2 then ['T', '2'] else [] := by
  simp only [secUnit, h]

theorem secUnit_no_plus (P : Params) (F : Frame) : '+' ∉ secUnit P F := by
  obtain ⟨t, ht, hsub⟩ := secUnit_sublist P F
  have hplus : ∀ t ∈ fullSecUnits, '+' ∉ t := by decide
  exact fun hmem => hplus t ht (hsub.subset hmem)

/-- Settles O34: AC, DC and no kind are the three cases of `secKind`. -/
theorem secondaryUnit : Obligations.SecondaryUnit := by
  refine fun P F => ⟨?_, secUnit_no_plus P F⟩
  simp only [letterIf_eq_whenSet]
  by_cases hac : flag F P.secAc = true
  · have hkind : secKind P F = some .ac := if_pos hac
    rw [secUnit_of_kind hkind, if_pos (.inl hac), if_pos hac]
    rfl
  by_cases hdc : flag F P.secDc = true
  · have hkind : secKind P F = some .dc := (if_neg hac).trans (if_pos hdc)
    rw [secUnit_of_kind hkind, if_pos (.inr hdc), if_neg hac]
    rfl
  · have hkind : secKind P F = none := (if_neg hac).trans (if_neg hdc)
    rw [secUnit_of_none hkind, if_neg (not_or.mpr ⟨hac, hdc⟩)]
    rfl

end Sys2Proof.Machine
end

section
/-! PROOFS of the family 42_mode_unit.md. Part 2: the start character of a main mode, and the flags each display reads. -/

namespace Sys2Proof.Machine

/-! ## The start of a main mode (R155) -/

/-- The modes of R148 to R150. -/
def temperatureModes : List Text := ["T1".toList, "T2".toList, "T1-T2".toList]

theorem head_of_startsWithT {t : Text} (h : startsWithT t = true) : t.head? = some 'T' := by
  cases t with
  | nil => cases h
  | cons c rest => exact congrArg some (of_decide_eq_true h)

theorem mainMode_head_of_kind (P : Params) {F : Frame} {k : MainKind} (h : mainKind F = some k) :
    ∃ c ∈ ['u', 'm', 'A', 'V', 'D'], (mainMode P F).head? = some c := by
  rw [mainMode_of_kind h]
  cases hdeco : mainDecoration P F with
  | nil =>
    cases k with
    | acDc | ac => exact ⟨'A', by decide, rfl⟩
    | dc => exact ⟨'D', by decide, rfl⟩
  | cons c rest =>
    have hc : c ∈ ['u', 'm', 'A', 'V'] := (mainDecoration_sublist P F).subset (hdeco ▸ List.mem_cons_self)
    exact ⟨c, List.mem_append_left ['D'] hc, rfl⟩

theorem not_mem_whenSet {c : Char} {F : Frame} {p : Position} {t : Text} (h : c ∉ t) : c ∉ whenSet F p t :=
  mt mem_of_mem_whenSet h

/-- No mode with a multiplier has a 'T' in it, and of those without one only the three temperature modes. -/
theorem temperature_of_modeRows (P : Params) (F : Frame) :
    ∀ row ∈ modeRows P F, 'T' ∈ row.2 → row.2 ∈ temperatureModes := by
  have hHz : 'T' ∉ mainFrequency P F := by simp [mainFrequency, not_mem_whenSet]
  have hOhm : 'T' ∉ mainResistance P F := by simp [mainResistance, not_mem_whenSet]
  have hF : 'T' ∉ mainCapacitance P F := by simp [mainCapacitance, not_mem_whenSet]
  have hS : 'T' ∉ mainConductance P F := by simp [mainConductance, not_mem_whenSet]
  simp only [modeRows, letterIf_eq_whenSet, List.forall_mem_cons]
  exact ⟨(absurd · hHz), (absurd · (by decide)), (absurd · (by decide)), fun _ => by decide, fun _ => by decide,
    fun _ => by decide, (absurd · hOhm), (absurd · hF), (absurd · hS), nofun⟩

/-- An electrical mode starts with another letter; without a kind the mode is a row of the table, or empty. -/
theorem mainMode_startsWithT_iff (P : Params) (F : Frame) :
    startsWithT (mainMode P F) = true ↔ mainMode P F ∈ temperatureModes := by
  have hstart : ∀ t ∈ temperatureModes, startsWithT t = true := by decide
  refine ⟨fun hT => ?_, hstart _⟩
  cases hkind : mainKind F with
  | some k =>
    obtain ⟨c, hc, hhead⟩ := mainMode_head_of_kind P hkind
    have hcT : c = 'T' := Option.some.inj (hhead.symm.trans (head_of_startsWithT hT))
    exact absurd (hcT ▸ hc) (by decide)
  | none =>
    rw [mainMode_of_none hkind, mainNonElectrical_eq_firstSet] at hT ⊢
    obtain hnil | ⟨row, hrow, heq⟩ := firstSet_cases F (modeRows P F)
    · rw [hnil] at hT
      cases hT
    · rw [heq] at hT ⊢
      exact temperature_of_modeRows P F row hrow (mem_of_startsWithT hT)

/-- Settles O33: the lengths are those of the full strings; with a kind the first letter is a decoration's or the kind's,
and without one only the temperature rows have a 'T'. -/
theorem modeStringShapes : Obligations.ModeStringShapes := by
  refine fun P F => ⟨mainMode_length_le P F, secUnit_length_le P F, mainMode_startsWithT_iff P F, fun hkind => ?_⟩
  obtain ⟨k, hk⟩ := Option.ne_none_iff_exists'.mp hkind
  exact mainMode_head_of_kind P hk

/-! ## The flags each display reads (R167) -/

section
variable {P : Params} {F G : Frame}

theorem mainKind_congr (h : ∀ p ∈ mainFlags P, flag F p = flag G p) : mainKind F = mainKind G := by
  simp only [mainFlags, List.forall_mem_cons] at h
  simp only [mainKind, h]

theorem mainDecoration_congr (h : ∀ p ∈ mainFlags P, flag F p = flag G p) :
    mainDecoration P F = mainDecoration P G := by
  simp only [mainFlags, List.forall_mem_cons] at h
  simp only [mainDecoration, whenSet, h]

theorem mainNonElectrical_congr (h : ∀ p ∈ mainFlags P, flag F p = flag G p) :
    mainNonElectrical P F = mainNonElectrical P G := by
  simp only [mainFlags, List.forall_mem_cons] at h
  simp only [mainNonElectrical, mainFrequency, mainResistance, mainCapacitance,
    mainConductance, whenSet, h]

theorem mainMode_congr (h : ∀ p ∈ mainFlags P, flag F p = flag G p) : mainMode P F = mainMode P G := by
  have hF := mainKind_congr h
  cases hG : mainKind G with
  | some k => rw [mainMode_of_kind (hF.trans hG), mainMode_of_kind hG, mainDecoration_congr h]
  | none => rw [mainMode_of_none (hF.trans hG), mainMode_of_none hG, mainNonElectrical_congr h]

theorem secUnit_congr (h : ∀ p ∈ secFlags P, flag F p = flag G p) : secUnit P F = secUnit P G := by
  simp only [secFlags, List.forall_mem_cons] at h
  have hF : secKind P F = secKind P G := by simp only [secKind, h]
  cases hG : secKind P G with
  | some k =>
    rw [secUnit_of_kind (hF.trans hG), secUnit_of_kind hG]
    simp only [secDecoration, whenSet, h]
  | none =>
    rw [secUnit_of_none (hF.trans hG), secUnit_of_none hG]
    simp only [secFrequency, whenSet, h]

end

/-- Settles O35: every flag a display's functions test is in its list. -/
theorem displaysReadOwnFlags : Obligations.DisplaysReadOwnFlags :=
  fun _ _ _ => ⟨mainMode_congr, secUnit_congr⟩

end Sys2Proof.Machine
end

section
/-! PROOFS of the family 43_sign_digits.md: the characters a cell adds to a digit string, the digit strings of both
displays, the sign before a value, and the temperature post-processing. -/

namespace Sys2Proof.Machine

/-! ## The characters of one cell (R120, R122) -/

theorem pointBit_iff_and_one (v : Byte) : pointBit v = true ↔ v &&& 1#8 = 1#8 := by
  simpa [flag, pointBit] using flag_iff_shift (fun _ => v) ⟨0, 0⟩

/-- A glyph has a point exactly where the shape is known and the point bit is set. -/
theorem lut_pt_eq_point_iff (g : GlyphShapes) (v : Byte) :
    (lut g v).pt = '.' ↔ v &&& 1#8 = 1#8 ∧ (lut g v).known = true := by
  rw [← pointBit_iff_and_one]
  cases h : g.lookup (shapeOf v) with
  | none => simp [lut_of_none h]
  | some c => simp [lut_of_some h]

theorem glyphText_lut (g : GlyphShapes) (v : Byte) : glyphText (lut g v) = cellWithPoint g v := by
  simp only [glyphText, cellWithPoint, lut_pt_eq_point_iff]
  split <;> rfl

/-- The characters of a glyph: the source's closed set, and the placeholder of an unknown shape (R120, R122; log entry 7). -/
theorem lut_ch_cases (g : GlyphShapes) (v : Byte) : (lut g v).ch = '?' ∨ ∃ c, (lut g v).ch = glyphChar c := by
  rw [lut_ch]
  cases g.lookup (shapeOf v) with
  | none => exact .inl rfl
  | some c => exact .inr ⟨c, rfl⟩

/-- No character of a glyph is a point, a minus or a plus. -/
theorem lut_ch_not_mem (g : GlyphShapes) (v : Byte) : (lut g v).ch ∉ ['.', '-', '+'] := by
  obtain h | ⟨c, h⟩ := lut_ch_cases g v
  · rw [h]
    decide
  · rw [h]
    cases c <;> decide

theorem cellWithPoint_filter (g : GlyphShapes) (v : Byte) :
    (cellWithPoint g v).filter (fun c => decide (c ≠ '.')) = [(lut g v).ch] := by
  have hch : (lut g v).ch ≠ '.' := fun h => lut_ch_not_mem g v (by simp [h])
  unfold cellWithPoint
  split <;> simp [hch]

theorem not_mem_cellWithPoint (g : GlyphShapes) (v : Byte) {c : Char} (hc : c ∈ ['-', '+']) :
    c ∉ cellWithPoint g v := by
  have hpoint : c ≠ '.' := fun h => absurd (h ▸ hc) (by decide)
  have hch : c ≠ (lut g v).ch := fun h => lut_ch_not_mem g v (h ▸ List.mem_cons_of_mem '.' hc)
  unfold cellWithPoint
  split <;> simp [hpoint, hch]

theorem cellWithPoint_withoutPoint (g : GlyphShapes) (v : Byte) :
    cellWithPoint g (withoutPoint v) = [(lut g v).ch] := by
  rw [← glyphText_lut, glyphText_withoutPoint, lut_ch_withoutPoint]

/-! ## The digit string of a list of cells (R182, R183) -/

theorem assemble_eq_flatMap (g : GlyphShapes) (cells : List Byte) :
    assemble g cells = cells.flatMap (cellWithPoint g) := by
  induction cells with
  | nil => rfl
  | cons v rest ih => rw [assemble, glyphText_lut, ih, List.flatMap_cons]

/-- Without its points a digit string is one character per cell. -/
theorem assemble_filter (g : GlyphShapes) (cells : List Byte) :
    (assemble g cells).filter (fun c => decide (c ≠ '.')) = cells.map (fun v => (lut g v).ch) := by
  simp only [assemble_eq_flatMap, List.filter_flatMap, cellWithPoint_filter, ← List.map_eq_flatMap]

/-- The lower bound that goes with `assemble_length_le`. -/
theorem length_le_assemble (g : GlyphShapes) (cells : List Byte) : cells.length ≤ (assemble g cells).length := by
  calc cells.length = ((assemble g cells).filter (fun c => decide (c ≠ '.'))).length := by
        rw [assemble_filter, List.length_map]
    _ ≤ (assemble g cells).length := List.length_filter_le _ _

/-- A digit string has no sign of its own. -/
theorem not_mem_assemble (g : GlyphShapes) (cells : List Byte) {c : Char} (hc : c ∈ ['-', '+']) :
    c ∉ assemble g cells := by
  rw [assemble_eq_flatMap, List.mem_flatMap]
  exact fun ⟨v, _, hmem⟩ => not_mem_cellWithPoint g v hc hmem

theorem anyUnknown_iff (g : GlyphShapes) (cells : List Byte) :
    anyUnknown g cells = true ↔ '?' ∈ cells.map (fun v => (lut g v).ch) := by
  simp [anyUnknown, lut_ch_eq_question_iff]

/-! ## The digit strings of the two displays -/

theorem mainDigits_eq (P : Params) (F : Frame) :
    mainDigits P F =
      [(lut P.glyphShapes (F 3)).ch] ++ cellWithPoint P.glyphShapes (F 4) ++ cellWithPoint P.glyphShapes (F 5) ++
        cellWithPoint P.glyphShapes (F 6) ++ cellWithPoint P.glyphShapes (F 7) ++ [(lut P.glyphShapes (F 8)).ch] := by
  simp [mainDigits, mainCellBytes, assemble_eq_flatMap, cellWithPoint_withoutPoint]

/-- Clearing the point bit of the first and the last cell keeps their characters. -/
theorem map_lut_ch_mainCellBytes (g : GlyphShapes) (F : Frame) :
    (mainCellBytes F).map (fun v => (lut g v).ch) =
      [F 3, F 4, F 5, F 6, F 7, F 8].map (fun v => (lut g v).ch) := by
  simp only [mainCellBytes, List.map_cons, List.map_nil, lut_ch_withoutPoint]

/-- Settles O37: the two outer cells have no point, the four between follow `cellWithPoint`; the characters without the
points and the '?' are those of the six cells, whose characters clearing a point bit keeps. -/
theorem mainDigitString : Obligations.MainDigitString := by
  intro P F
  have hchars := map_lut_ch_mainCellBytes P.glyphShapes F
  refine ⟨mainDigits_eq P F, length_le_assemble _ (mainCellBytes F), mainDigits_length_le P F, ?filter, ?unknown⟩
  case filter => exact (assemble_filter _ _).trans hchars
  case unknown => rw [anyUnknown_iff, hchars, List.mem_map]

/-- Settles O38: the facts of a digit string, for the bytes at the cells of SEC_CELLS. -/
theorem secondaryDigitString : Obligations.SecondaryDigitString := by
  intro P F
  have hchars : (secCellBytes P F).map (fun v => (lut P.glyphShapes v).ch) =
      P.secCells.cells.map (fun n => (lut P.glyphShapes (F n)).ch) := List.map_map
  refine ⟨?digits, ?lower, secDigits_length_le P F, ?filter, ?unknown⟩
  case digits => rw [secDigits, secCellBytes, assemble_eq_flatMap, List.flatMap_map]
  case lower =>
    have h := length_le_assemble P.glyphShapes (secCellBytes P F)
    rwa [secCellBytes, List.length_map] at h
  case filter => exact (assemble_filter _ _).trans hchars
  case unknown => rw [anyUnknown_iff, hchars, List.mem_map]

/-! ## The sign before a value (R180, R181, R186) -/

/-- With no '-' in the digits, the sign alone decides the head, and nothing behind it is a '-'. -/
theorem sign_leads_iff (F : Frame) (p : Position) {digits : Text} (h : '-' ∉ digits) :
    ((whenSet F p ['-'] ++ digits).head? = some '-' ↔ flag F p = true) ∧
      '-' ∉ (whenSet F p ['-'] ++ digits).tail := by
  cases hflag : flag F p with
  | true => simp [whenSet, hflag, h]
  | false =>
    simp only [whenSet, hflag, Bool.false_eq_true, if_false, List.nil_append, iff_false]
    exact ⟨fun hhead => h (List.mem_of_head? hhead), fun htail => h (List.mem_of_mem_tail htail)⟩

theorem no_plus_in_signed (F : Frame) (p : Position) {digits : Text} (h : '+' ∉ digits) :
    '+' ∉ whenSet F p ['-'] ++ digits :=
  List.not_mem_append (not_mem_whenSet (by decide)) h

/-- Settles O36: neither digit string has a '-' or a '+', and post-processing adds no character to the value. -/
theorem signLeadsValue : Obligations.SignLeadsValue := by
  intro P F
  have hmain : ∀ c ∈ ['-', '+'], c ∉ (temperaturePost (mainMode P F) (mainDigits P F)).1 :=
    fun c hc hmem => not_mem_assemble _ _ hc (temperaturePost_value_subset _ _ hmem)
  have hsec : ∀ c ∈ ['-', '+'], c ∉ secDigits P F := fun c hc => not_mem_assemble _ _ hc
  obtain ⟨hmainHead, hmainTail⟩ := sign_leads_iff F mainSignAt (hmain '-' (by decide))
  obtain ⟨hsecHead, hsecTail⟩ := sign_leads_iff F P.secSign (hsec '-' (by decide))
  exact ⟨hmainHead, hsecHead, hmainTail, hsecTail, no_plus_in_signed F mainSignAt (hmain '+' (by decide)),
    no_plus_in_signed F P.secSign (hsec '+' (by decide))⟩

/-! ## Temperature post-processing (R184) -/

theorem temperaturePost_concat {mode : Text} (digits : Text) (c : Char) (h : startsWithT mode = true) :
    temperaturePost mode (digits ++ [c]) = (digits, mode ++ [' ', c]) := by
  simp [temperaturePost_of_temperature _ h]

/-- Settles O39: the main digits end with cell 5's character, which is what post-processing moves; a mode starts with 'T'
exactly when it is one of the three (`mainMode_startsWithT_iff`). -/
theorem temperatureMovesLastDigit : Obligations.TemperatureMovesLastDigit := by
  refine ⟨fun P F => ?_, rfl⟩
  have hT := mainMode_startsWithT_iff P F
  simp only [letterIf_eq_whenSet]
  refine ⟨hT, fun hmode => ⟨_, mainDigits_eq P F, ?temperature⟩, fun hmode => ?other, rfl, rfl⟩
  case temperature =>
    simp only [decodeFn, mainDigits_eq, temperaturePost_concat _ _ (hT.mpr hmode), and_true]
    rfl
  case other =>
    simp only [decodeFn, temperaturePost_of_other _ (mt hT.mp hmode), and_true]
    rfl

end Sys2Proof.Machine
end

section
/-! PROOFS of the family 44_decode.md: the two outcomes of DECODE, and a whole reading cycle. -/

namespace Sys2Proof.Machine

/-! ## The two outcomes of DECODE -/

/-- DECODE of a complete frame answers its Reading and starts a new cycle (R200). -/
theorem exec_decode_of_full {s : State} (h : s.valid = validFull) :
    exec .decode s =
      .next ((s.setValid validNone).respond (decodeResponse Config.params (Memory.snapshot s.frame))) :=
  congrArg Host.Outcome.next (if_pos h)

/-- Settles O20. -/
theorem decodeAnswersReading : Obligations.DecodeAnswersReading :=
  fun _ hfull => exec_decode_of_full hfull

/-- Settles O21. -/
theorem decodeRefusesIncompleteFrame : Obligations.DecodeRefusesIncompleteFrame :=
  fun _ hnot => exec_decode_of_not_full hnot

theorem frameIncomplete_of_exec_decode {s t : State} (hnot : s.valid ≠ validFull) (h : exec .decode s = .next t) :
    ∃ r, t.response = some r ∧ r.status = .frameIncomplete ∧ t.frame = s.frame := by
  obtain rfl : s.raise .frameIncomplete = t := by simpa [exec_decode_of_not_full hnot] using h
  exact ⟨_, rfl, rfl, rfl⟩

/-- A successful DECODE leaves VALID 0b000 and FRAME as it was. -/
theorem cleared_of_exec_decode {s t : State} (hfull : s.valid = validFull) (h : exec .decode s = .next t) :
    t.valid = validNone ∧ t.frame = s.frame := by
  obtain rfl : (s.setValid validNone).respond (decodeResponse Config.params (Memory.snapshot s.frame)) = t := by
    simpa [exec_decode_of_full hfull] using h
  exact ⟨rfl, rfl⟩

theorem not_full_of_validBit {v : BitVec 3} {c : Fin 3} (h : validBit v c = false) : v ≠ validFull :=
  fun hfull => Bool.false_ne_true (h.symm.trans ((valid_full_iff v).mp hfull c))

/-- Settles O22: a successful DECODE clears every VALID bit, and a short STORE the bit of its chunk. -/
theorem decodeNeedsFreshChunks : Obligations.DecodeNeedsFreshChunks := by
  refine ⟨fun s t u hfull hdecode hagain => ?second, fun s t u c len data hshort hstore hdecode => ?short⟩
  case second =>
    obtain ⟨hnone, hframe⟩ := cleared_of_exec_decode hfull hdecode
    have hcleared : t.valid ≠ validFull := not_full_of_validBit (c := 0) (by simp [hnone])
    exact hframe ▸ frameIncomplete_of_exec_decode hcleared hagain
  case short =>
    obtain rfl : storeChunk c len data s = t := by simpa [exec_store_of_le s c data hshort.le] using hstore
    have hclear : validBit (storeChunk c len data s).valid c = false := by simp [hshort.ne]
    exact frameIncomplete_of_exec_decode (not_full_of_validBit hclear) hdecode

/-! ## A reading cycle (R242) -/

theorem run_succ {s t : State} (n : Nat) (h : step s = .next t) : core.run (n + 1) s = core.run n t := by
  have hstep : core.step s = .next t := h
  simp only [Host.Core.run, hstep]

/-- The cycle of the 24 bytes `f`: every chunk stored in full. -/
def Cycle.ofBytes (f : Vector Byte 24) : Cycle := fun c => some fun j => f[chunkAddr c j]

/-- A state that holds the cycle of `f` has a complete frame, and its bytes are `f`. -/
theorem State.complete_of_fullChunks {s : State} {f : Vector Byte 24} (h : s.fullChunks = Cycle.ofBytes f) :
    s.valid = validFull ∧ Memory.snapshot s.frame = fun a => f[a] := by
  have hheld : ∀ c, validBit s.valid c = true ∧ ∀ j, Memory.read s.frame (chunkAddr c j) = f[chunkAddr c j] :=
    ((Cycle.ofBytes f).heldBy_iff s).mpr h
  refine ⟨(valid_full_iff s.valid).mpr fun c => (hheld c).1, funext fun a => ?_⟩
  obtain ⟨c, j, rfl⟩ := chunkAddr_surj a
  exact (hheld c).2 j

theorem lane_chunkBytesOf (f : Vector Byte 24) (c : Fin 3) :
    lane (dataOfBytes (chunkBytesOf f c)) = fun j => f[chunkAddr c j] := by
  funext j
  rw [lane_dataOfBytes]
  fin_cases j <;> rfl

/-- A step that takes the full STORE of chunk `c` of `f` replaces what that chunk holds, and nothing else of the
cycle. -/
theorem step_fullStore {s : State} {f : Vector Byte 24} {c : Fin 3} {rest : List HostInput}
    (hin : s.inputs = .command (storeOf c.val 8 (chunkBytesOf f c)) :: rest) :
    ∃ t, step s = .next t ∧ t.inputs = rest ∧
      t.fullChunks = Function.update s.fullChunks c (Cycle.ofBytes f c) := by
  have hwf : (Instr.store c.val 8 (dataOfBytes (chunkBytesOf f c))).wellFormed = true :=
    (Instr.wellFormed_store_iff _ _ _).mpr ⟨by omega, by omega⟩
  refine ⟨storeChunk c 8 (dataOfBytes (chunkBytesOf f c)) { s with inputs := rest }, ?step, rfl, ?chunks⟩
  case step => exact (step_of_decoded hin (decodeInvertsEncode _ hwf)).trans (exec_store_of_le _ c _ le_rfl)
  case chunks =>
    rw [fullChunks_storeChunk, if_pos rfl, lane_chunkBytesOf]
    rfl

/-- Full STOREs of the chunks in `order` make those chunks hold the bytes of `f`; the other chunks are as before. -/
theorem run_fullStores {s : State} {f : Vector Byte 24} {order : List (Fin 3)} {rest : List HostInput}
    (hin : s.inputs = order.map (fun c => .command (storeOf c.val 8 (chunkBytesOf f c))) ++ rest) :
    ∃ t, (∀ n, core.run (order.length + n) s = core.run n t) ∧ t.inputs = rest ∧
      ∀ c, t.fullChunks c = if c ∈ order then Cycle.ofBytes f c else s.fullChunks c := by
  induction order generalizing s with
  | nil => exact ⟨s, fun n => by simp, hin, fun _ => rfl⟩
  | cons d order ih =>
    obtain ⟨t, hstep, hinputs, hstored⟩ := step_fullStore hin
    obtain ⟨u, hrun, hrest, hchunks⟩ := ih hinputs
    refine ⟨u, fun n => ?run, hrest, fun c => ?chunks⟩
    case run => rw [List.length_cons, Nat.add_right_comm, run_succ _ hstep, hrun]
    case chunks =>
      rw [hchunks, hstored]
      by_cases hc : c = d
      · subst hc
        simp
      · simp [hc]

/-- Settles O50: the three STOREs fill every chunk (`run_fullStores`), whatever the state held, and DECODE reads the
frame. -/
theorem readingCycleFromAnyState : Obligations.ReadingCycleFromAnyState := by
  intro s f order rest hperm hin
  obtain ⟨t, hrun, hinputs, hchunks⟩ := run_fullStores hin
  have hall (c : Fin 3) : c ∈ order := hperm.mem_iff.mpr (by fin_cases c <;> decide)
  obtain ⟨hfull, hframe⟩ := State.complete_of_fullChunks (funext fun c => (hchunks c).trans (if_pos (hall c)))
  have hlast := (step_of_decoded hinputs (decode_of_0x80 rfl)).trans (exec_decode_of_full hfull)
  have hlen : order.length = 3 := hperm.length_eq
  have hfour : core.run (3 + 1) s = core.run 1 t := by rw [← hlen, hrun]
  exact ⟨_, hfour.trans (run_succ 0 hlast), congrArg (some <| decodeResponse Config.params ·) hframe, rfl, rfl,
    congrFun hframe⟩

end Sys2Proof.Machine
end

section
/-! PROOFS of the family 60_exceptions.md: every step completes, with which status, and a good state stays good. -/

namespace Sys2Proof.Machine

/-! ## Good states (R223, R67, R68) -/

theorem Response.plain_good (st : Status) : (Response.plain st).good := by
  simp [Response.good, Reading.empty]

/-- The Reading of a frame fits its ports (`readingFitsPorts`) and consists of output characters (`decodeFn_chars`). -/
theorem decodeResponse_good (P : Params) (F : Frame) : (decodeResponse P F).good := by
  obtain ⟨hmain, hunit, -, hsec, hsecUnit, -⟩ := readingFitsPorts P F
  have hfits : ∀ x ∈ (decodeFn P F).1.texts, x.length ≤ 16 := by
    simp only [Reading.texts, List.forall_mem_cons]
    exact ⟨by omega, by omega, by omega, by omega, nofun⟩
  exact ⟨fun herror => absurd rfl herror, fun x hx => ⟨hfits x hx, decodeFn_chars P F x hx⟩⟩

theorem ExecResult.wf_frame {i : Instr} {s t : State} (h : ExecResult i s t) (hwf : Memory.wf s.frame) :
    Memory.wf t.frame := by
  cases h with
  | stored c data _ _ _ => exact Memory.wf_writeLanes s.frame c _ data hwf
  | nop | noChunk | tooLong | decoded | incomplete | clear => exact hwf

theorem step_wf_frame {s t : State} (h : step s = .next t) (hwf : Memory.wf s.frame) : Memory.wf t.frame := by
  rcases step_cases s with ⟨-, hs⟩ | ⟨p, rest, -, hs⟩ | ⟨c, rest, e, -, -, hs⟩ | ⟨c, rest, i, hin, hd, -⟩
  · obtain rfl : s.idle = t := by simpa [hs] using h
    exact hwf
  · obtain rfl : ({ s with inputs := rest } : State).assertReset = t := by simpa [hs] using h
    exact reset_frame_wf
  · obtain rfl : ({ s with inputs := rest } : State).raise .reservedField = t := by simpa [hs] using h
    exact hwf
  · exact (ExecResult.of_step hin hd h).wf_frame hwf

/-- A response shown is a status alone or the Reading of a frame (`step_response_cases`), whatever the state was. -/
theorem step_response_good {s t : State} {r : Response} (h : step s = .next t) (hr : t.response = some r) : r.good := by
  obtain ⟨c, rest, hin⟩ := command_of_step_response h hr
  rcases step_response_cases hin h with ⟨-, -, -, hresp⟩ | ⟨-, st, hresp⟩ <;>
    obtain rfl := Option.some.inj (hr.symm.trans hresp)
  · exact decodeResponse_good Config.params (Memory.snapshot s.frame)
  · exact Response.plain_good st

/-- Settles O47. -/
theorem stepKeepsGood : Obligations.StepKeepsGood :=
  fun _ _ ⟨hwf, _⟩ hstep => ⟨step_wf_frame hstep hwf, fun _ => step_response_good hstep⟩

/-! ## Every step completes (R220) -/

theorem step_total (s : State) : ∃ t, step s = .next t := by
  cases hin : s.inputs with
  | nil => exact ⟨_, step_of_idle hin⟩
  | cons x rest =>
    obtain ⟨t, hstep, -⟩ := step_fullChunks hin
    exact ⟨t, hstep⟩

theorem Cycle.input_command_answers (P : Params) (y : Cycle) (c : Command) :
    ∃ r, (y.input P (.command c)).2 = some r := by
  cases hd : decode c with
  | error e => exact ⟨Response.plain .reservedField, by simp only [Cycle.input, hd]⟩
  | ok i => exact ⟨(y.command P i).2, by simp only [Cycle.input, hd]⟩

/-- Settles O9: a step answers what the reference answers (`step_fullChunks`), which is a response for every command. -/
theorem everyCommandCompletes : Obligations.EveryCommandCompletes := by
  refine ⟨step_total, fun s c rest hin => ?_⟩
  obtain ⟨t, hstep, hrest, -, hresp⟩ := step_fullChunks hin
  obtain ⟨r, hr⟩ := Cycle.input_command_answers Config.params s.fullChunks c
  exact ⟨t, r, hstep, hresp.trans hr, hrest⟩

/-- Settles O13: the result is `State.idle`. -/
theorem idleStepChangesNothing : Obligations.IdleStepChangesNothing :=
  fun _ => step_of_idle

/-! ## Errors (R223) -/

/-- A command that answers an error has only raised it. -/
theorem ExecResult.eq_raise_of_error {i : Instr} {s t : State} {r : Response} (h : ExecResult i s t)
    (hr : t.response = some r) (herror : r.status ≠ .ok) : ∃ st, t = s.raise st := by
  cases h with
  | noChunk | tooLong | incomplete => exact ⟨_, rfl⟩
  | nop | stored | decoded | clear =>
    obtain rfl := Option.some.inj hr
    exact absurd rfl herror

theorem step_eq_raise_of_error {s t : State} {c : Command} {rest : List HostInput} {r : Response}
    (hin : s.inputs = .command c :: rest) (h : step s = .next t) (hr : t.response = some r) (herror : r.status ≠ .ok) :
    ∃ st, t = ({ s with inputs := rest } : State).raise st := by
  cases hd : decode c with
  | error e => exact ⟨.reservedField, by simpa [step_of_reserved hin hd, eq_comm] using h⟩
  | ok i => exact (ExecResult.of_step hin hd h).eq_raise_of_error hr herror

/-- Settles O10: a raised error replaces the response alone. -/
theorem errorsChangeNothing : Obligations.ErrorsChangeNothing := by
  intro s t c rest r hin hstep hr herror
  obtain ⟨st, rfl⟩ := step_eq_raise_of_error hin hstep hr herror
  obtain rfl := Option.some.inj hr
  exact ⟨rfl, rfl, rfl, rfl⟩

/-! ## The status of a command (R222) -/

/-- The status of a decoded command under a VALID: the index before the length, and VALID for DECODE alone. -/
def statusUnder (v : BitVec 3) : Instr → Status
  | .nop => .ok
  | .store idx len _ => if 3 ≤ idx then .chunkIndex else if 8 < len then .chunkSize else .ok
  | .decode => if v = validFull then .ok else .frameIncomplete
  | .clear => .ok

theorem ExecResult.status_eq {i : Instr} {s t : State} {r : Response} (h : ExecResult i s t)
    (hr : t.response = some r) : r.status = statusUnder s.valid i := by
  cases h <;> obtain rfl := Option.some.inj hr
  case nop => rfl
  case noChunk len data hidx => exact (if_pos hidx).symm
  case tooLong idx len c data hidx hlen => simp [statusUnder, hlen, show ¬ 3 ≤ idx by omega]
  case stored idx len c data hidx hlen =>
    simp [statusUnder, show ¬ 3 ≤ idx by omega, show ¬ 8 < len by omega]
  case decoded hfull => exact (if_pos hfull).symm
  case incomplete hfull => exact (if_neg hfull).symm
  case clear => rfl

/-- The numbers of R63's table agree with the decoded command on the status. -/
theorem expectedStatus_of_decoded {c : Command} {i : Instr} (v : BitVec 3) (h : decode c = .ok i) :
    expectedStatus c.cmd v = statusUnder v i := by
  rcases decode_cases c with ⟨hn, hd⟩ | ⟨hlow, hhigh, hd⟩ | ⟨hn, hd⟩ | ⟨hn, hd⟩ | ⟨-, -, hd⟩ <;>
    rw [hd] at h <;> cases h
  · simp [expectedStatus, statusUnder, hn]
  · have hidx : c.cmd.toNat / 16 % 4 = 3 ↔ 3 ≤ c.cmd.toNat / 16 % 4 := by omega
    simp only [expectedStatus, statusUnder, hidx, hhigh, if_true, if_neg (show ¬ c.cmd.toNat = 0x00 by omega),
      if_neg (Nat.not_lt.mpr hlow)]
  · have hfull : v.toNat = 7 ↔ v = validFull := (BitVec.toNat_inj (y := validFull))
    simp [expectedStatus, statusUnder, hn, hfull]
  · simp [expectedStatus, statusUnder, hn]

theorem expectedStatus_of_reserved {c : Command} {e : DecodeError} (v : BitVec 3) (h : decode c = .error e) :
    expectedStatus c.cmd v = .reservedField := by
  rcases decode_cases c with ⟨-, hd⟩ | ⟨-, -, hd⟩ | ⟨-, hd⟩ | ⟨-, hd⟩ | ⟨hlow, hrange, hd⟩ <;>
    rw [hd] at h <;> cases h
  have hnop : c.cmd.toNat ≠ 0x00 := by omega
  have hdecode : c.cmd.toNat ≠ 0x80 := by omega
  have hclear : c.cmd.toNat ≠ 0xC0 := by omega
  by_cases hsmall : c.cmd.toNat < 0x40
  · simp only [expectedStatus, if_neg hnop, if_pos hsmall]
  · have hlarge : ¬ c.cmd.toNat < 0x80 := by omega
    simp only [expectedStatus, if_neg hnop, if_neg hsmall, if_neg hlarge, if_neg hdecode, if_neg hclear]

theorem step_status_eq {s t : State} {c : Command} {rest : List HostInput} {r : Response}
    (hin : s.inputs = .command c :: rest) (h : step s = .next t) (hr : t.response = some r) :
    r.status = expectedStatus c.cmd s.valid := by
  cases hd : decode c with
  | error e =>
    obtain rfl : ({ s with inputs := rest } : State).raise .reservedField = t := by
      simpa [step_of_reserved hin hd] using h
    obtain rfl := Option.some.inj hr
    exact (expectedStatus_of_reserved s.valid hd).symm
  | ok i => exact ((ExecResult.of_step hin hd h).status_eq hr).trans (expectedStatus_of_decoded s.valid hd).symm

/-- Settles O11: a status alone carries UNK 0 (`step_response_cases`), so UNK is set by a successful DECODE only. -/
theorem statusPriority : Obligations.StatusPriority := by
  intro s t c rest r hin hstep hr
  refine ⟨step_status_eq hin hstep hr, ?_⟩
  rcases step_response_cases hin hstep with ⟨hcmd, hfull, -, hresp⟩ | ⟨-, st, hresp⟩ <;>
    obtain rfl := Option.some.inj (hr.symm.trans hresp)
  · exact fun _ => ⟨hcmd, hfull, rfl⟩
  · exact nofun

end Sys2Proof.Machine
end

section
/-! PROOFS of the family 70_reset_and_hazards.md: what asserting reset does (R240). -/

namespace Sys2Proof.Machine

theorem State.assertReset_valid_eq_zero (s : State) : s.assertReset.valid = 0b000#3 :=
  s.assertReset_valid.trans resetStateGood.2

/-- Settles O12: the step leads to `assertReset` (`step_of_reset`), which does not read the command presented with the
reset. -/
theorem resetInputClearsValid : Obligations.ResetInputClearsValid := by
  intro s p rest hin
  refine ⟨_, step_of_reset hin, ?valid, ?response, ?inputs, ?anyCommand⟩
  case valid => exact State.assertReset_valid_eq_zero _
  case response => exact State.assertReset_response _
  case inputs => exact State.assertReset_inputs _
  case anyCommand => exact fun _ => step_of_reset rfl

end Sys2Proof.Machine
end
